-- ==== Sys2Proof/Word.lean ====
section
/-! DEFINITION. The widths of the ZL-64: bus words, page numbers and the numbers of slots, requesters, tickets and tags. -/

namespace Sys2Proof

/-- A 32-bit word of the host bus, the maintenance link and the record layouts (R180, R182). -/
abbrev Word := BitVec 32

/-- A page number, address bits 31 to 12 (R4). -/
abbrev Page := BitVec 20

/-- A slot of the Window Table, 0 to 63 (R1). -/
abbrev Slot := Fin 64

/-- A requester of the fabric, 0 to 15 (R27). -/
abbrev Requester := Fin 16

/-- A lookup tag, 0 to 3 (R27). -/
abbrev LookupTag := Fin 4

/-- A ticket, 0 to 31 (R53). -/
abbrev TicketNo := Fin 32

/-- A command tag, 0 to 15 (R182). -/
abbrev CommandTag := Fin 16

/-- The 64 slots in ascending order. -/
def allSlots : List Slot := List.finRange 64

/-- The 32 tickets in ascending order. -/
def allTickets : List TicketNo := List.finRange 32

end Sys2Proof
end

