-- ==== Sys2Proof/Syntax.lean ====
section
/-! DEFINITION. The commands of the ZL-64: one constructor of `Instr` per row of spec/opcode_table.json. -/

namespace Sys2Proof

/-- The issuer of a command: the host or the tool (R73). -/
inductive Party where
  | host
  | maint
deriving DecidableEq, Repr

/-- The privilege of a host bus write, or of a requester (R133, R169). -/
inductive Privilege where
  | user
  | supervisor
deriving DecidableEq, Repr

/-- The registers of the host register window, and its two offsets that hold none (R184). -/
inductive HostRegister where
  | command
  | response
  | status
  | eventPending
  | eventEnable
  | portControl
  | none18
  | none1C
deriving DecidableEq, Repr

/-- The strap pins as the rising edge of PORn samples them (R187). -/
structure Straps where
  /-- BWS1, BWS0 -/
  width : BitVec 2
  /-- BORD: true is 1, BIG -/
  bigEndian : Bool
  /-- TOOLPRES: true is asserted -/
  toolPresent : Bool
deriving DecidableEq, Repr

/-- The request bundle of the Check Port (R27, R185): the length is carried as length minus 1. -/
structure LookupRequest where
  requester : Requester
  tag : LookupTag
  address : Word
  lengthCode : BitVec 6
  kindCode : BitVec 2
deriving DecidableEq, Repr

/-- The 160 bits of the command shift path or the response capture path: word 0 is the header (R186). -/
structure Frame where
  header : Word
  word1 : Word
  word2 : Word
  word3 : Word
  word4 : Word
deriving DecidableEq, Repr, Inhabited

/-- One constructor per row of the table, in the table's order. A table command carries the party whose
engine holds it; the command's own words stand in the State (the Command Queue, the command in hand or the
command register), where COMMAND_WORD and COMMAND_FRAME have put them. -/
inductive Instr where
  | powerOnReset (straps : Straps)
  | lookupRequest (request : LookupRequest)
  | lookup
  | verdictDeparture
  | completionNotice (ticket : TicketNo) (requester : Requester)
  | fabricReset
  | frstRelease
  | sweepRequest
  | visit
  | commandWord (privilege : Privilege) (word : Word)
  | unknownCommand (party : Party)
  | stg (party : Party)
  | abn (party : Party)
  | cmt (party : Party)
  | rtr (party : Party)
  | rnw (party : Party)
  | mod (party : Party)
  | qry (party : Party)
  | rex (party : Party)
  | sdf
  | ten
  | tds
  | own
  | spr
  | srv
  | rvs
  | tcf
  | tst
  | tsp
  | grt
  | rcl
  | responseRead
  | owedResponse (party : Party)
  | clearDrainForced (word : Word)
  | clearProtocol (word : Word)
  | clearOwnership (word : Word)
  | eventEnableWrite (word : Word)
  | portReset
  | ignoredWrite (register : HostRegister) (privilege : Privilege) (word : Word)
  | commandFrame (frame : Frame)
  | responseRegisterRead
  | linkReset
  | refclkTick
  | pornAssertion
deriving DecidableEq, Repr

end Sys2Proof
end

