-- ==== Sys2Proof/Config.lean ====
section
/-! DEFINITION. The fixed resources of the part, and the one value the spec leaves open. -/

namespace Sys2Proof.Config

/-- Places of the Lookup Queue (R32). -/
def lookupPlaces : Nat := 16

/-- Places of the Verdict Buffer (R45). -/
def verdictPlaces : Nat := 8

/-- Places of the Command Queue (R139). -/
def commandPlaces : Nat := 8

/-- Places of the Response Queue (R144). -/
def responsePlaces : Nat := 16

/-- The host wait count at which the age rule holds (R124, R125). -/
def ageLimit : Nat := 8

/-- The frame that the k-th LINKRSP capture taken while PORn is low finds in the capture path.
DESIGN CHOICE (log entry 7), safe: the spec says what that capture finds at no time before the rising edge,
so the value is free and nothing constrains it. -/
opaque captureInReset : Nat → Frame

end Sys2Proof.Config
end

