-- ==== Sys2Proof/WellFormed.lean ====
section
/-! DEFINITION. When a command term is one the ZL-64 can be given: the operands' types bound every number, and
the checks below say when a host bus write belongs to the row that carries it. -/

namespace Sys2Proof

/-- A write that changes nothing (R133, R184): a register or offset that takes no write, a user write to a
supervisor register, a supervisor write to EVENT PENDING with no sticky bit, or to PORT CONTROL with the reset
bit 0. -/
def ignoresWrite (register : HostRegister) (privilege : Privilege) (word : Word) : Bool :=
  match register with
  | .command => false
  | .response | .status | .none18 | .none1C => true
  | .eventPending => privilege == .user || word.extractLsb' 3 3 == 0#3
  | .eventEnable => privilege == .user
  | .portControl => privilege == .user || !word.getLsbD 0

/-- The check on each command's operands. -/
def Instr.wellFormed : Instr → Bool
  | .clearDrainForced word => word.getLsbD 3
  | .clearProtocol word => word.getLsbD 4
  | .clearOwnership word => word.getLsbD 5
  | .ignoredWrite register privilege word => ignoresWrite register privilege word
  | .powerOnReset _ | .lookupRequest _ | .lookup | .verdictDeparture | .completionNotice _ _
  | .fabricReset | .frstRelease | .sweepRequest | .visit | .commandWord _ _ | .unknownCommand _
  | .stg _ | .abn _ | .cmt _ | .rtr _ | .rnw _ | .mod _ | .qry _ | .rex _ | .sdf | .ten | .tds | .own
  | .spr | .srv | .rvs | .tcf | .tst | .tsp | .grt | .rcl | .responseRead | .owedResponse _
  | .eventEnableWrite _ | .portReset | .commandFrame _ | .responseRegisterRead | .linkReset
  | .refclkTick | .pornAssertion => true

end Sys2Proof
end

