-- ==== Sys2Proof/Decode.lean ====
section
/-! DEFINITION. How words reach the rows: no row of the opcode table has bits of its own, so no table word spells
a command; a write on the host bus is read as the row it belongs to (R133, R184). -/

namespace Sys2Proof

/-- The byte offset of a register in the host register window (R184). -/
def HostRegister.offset : HostRegister → Nat
  | .command => 0x00
  | .response => 0x04
  | .status => 0x08
  | .eventPending => 0x0C
  | .eventEnable => 0x10
  | .portControl => 0x14
  | .none18 => 0x18
  | .none1C => 0x1C

/-- The register at a byte offset of the window; every access is taken as a whole word (R133, R184). -/
def HostRegister.ofOffset (offset : Nat) : Option HostRegister :=
  [HostRegister.command, .response, .status, .eventPending, .eventEnable, .portControl, .none18, .none1C].find?
    fun r => r.offset == offset

/-- The row that a write on the host bus is. A write to EVENT PENDING that clears several sticky kinds is one
write: it is the row of the lowest of them, and the row carries the whole word. -/
def readBusWrite (register : HostRegister) (privilege : Privilege) (word : Word) : Instr :=
  if ignoresWrite register privilege word then .ignoredWrite register privilege word
  else match register with
    | .command => .commandWord privilege word
    | .eventPending =>
      if word.getLsbD 3 then .clearDrainForced word
      else if word.getLsbD 4 then .clearProtocol word
      else .clearOwnership word
    | .eventEnable => .eventEnableWrite word
    | .portControl => .portReset
    | .response | .status | .none18 | .none1C => .ignoredWrite register privilege word

/-- The command a table word spells: none, because spec/opcode_table.json gives no row any bits. -/
def decodeTableWord (_nbits _w : Nat) : Option Instr := none

end Sys2Proof
end

