-- ==== Sys2Proof/Machine/State.lean ====
section
/-! DEFINITION. The state of the ZL-64, block by block as 00_scope.md lists the blocks, and its value after
power-on reset. -/

namespace Sys2Proof.Machine

/-- What an access does (R27). -/
inductive AccessKind where
  | read
  | write
  | fetch
deriving DecidableEq, Repr

/-- A subset of READ, WRITE, FETCH (R6). -/
structure Rights where
  read : Bool
  write : Bool
  fetch : Bool
deriving DecidableEq, Repr

/-- What a failure of the rights leads to (R6). -/
inductive EnforceMode where
  | enforce
  | watch
deriving DecidableEq, Repr

/-- Bus width attribute (R7). -/
inductive BusWidth where
  | bits8
  | bits16
  | bits32
  | bits64
deriving DecidableEq, Repr

/-- Byte order attribute (R7). -/
inductive ByteOrder where
  | little
  | big
deriving DecidableEq, Repr

/-- The bus attributes of a record (R7). -/
structure Attributes where
  width : BusWidth
  waitProfile : BitVec 4
  burst : Bool
  byteOrder : ByteOrder
  cacheable : Bool
deriving DecidableEq, Repr

/-- The policy fields of a window, which are all the fields of the default record (R1, R15). -/
structure Policy where
  user : Rights
  supervisor : Rights
  mode : EnforceMode
  attrs : Attributes
deriving DecidableEq, Repr

/-- Why a window entered DRAINING (R10). -/
inductive DrainCause where
  | retire
  | expiry
  | supersede
deriving DecidableEq, Repr

/-- What an ending of a drain gives an owed response (R11). -/
inductive DrainOutcome where
  | drained
  | forced
  | fabricReset
deriving DecidableEq, Repr

/-- An owed response of a slot: the outcome is absent while the drain runs (R11). -/
structure Owed where
  party : Party
  tag : CommandTag
  outcome : Option DrainOutcome
deriving DecidableEq, Repr

/-- The state of a window, with the fields present in that state alone (R1, R9, R10). -/
inductive WindowState where
  | free
  | staged (target : Option Slot)
  | live
  | draining (cause : DrainCause) (age : BitVec 4)
deriving DecidableEq, Repr

/-- A window record (R1). -/
structure Window where
  state : WindowState
  owner : Party
  base : Page
  mask : Page
  rank : BitVec 3
  /-- bit r is 1 when requester r is a member -/
  members : BitVec 16
  policy : Policy
  reload : BitVec 8
  remaining : BitVec 8
  fresh : Bool
  owed : Option Owed
deriving DecidableEq, Repr

/-- The boot record: rights and attributes, and no mode (R17). -/
structure BootRecord where
  user : Rights
  supervisor : Rights
  attrs : Attributes
deriving DecidableEq, Repr

/-- Which records decide lookups (R18). -/
inductive TableMode where
  | boot
  | active
deriving DecidableEq, Repr

/-- The Window Table (R1, R15, R17, R18, R20). -/
structure WindowTable where
  windows : Vector Window 64
  defaultRecord : Policy
  bootRecord : BootRecord
  mode : TableMode
  /-- entry n is true when slot n is a member -/
  expiry : Vector Bool 64
deriving DecidableEq, Repr

/-- A block that claims the Table Arbiter (R121). -/
inductive Claimant where
  | maint
  | sweep
  | lookup
  | host
deriving DecidableEq, Repr

/-- The Table Arbiter (R121). -/
structure Arbiter where
  holder : Option Claimant
  hostWait : Nat
deriving DecidableEq, Repr

/-- Arrival class of a request, urgency of a requester (R31, R169). -/
inductive Urgency where
  | normal
  | urgent
deriving DecidableEq, Repr

/-- An entry of the Lookup Queue (R34). The length is held as length minus 1, the wire's code (R27). -/
structure QueueEntry where
  requester : Requester
  tag : LookupTag
  address : Word
  lengthCode : BitVec 6
  kind : AccessKind
  arrivalClass : Urgency
deriving DecidableEq, Repr

/-- The source of a verdict (R44). -/
inductive Source where
  | slot (n : Slot)
  | defaultRecord
  | boot
deriving DecidableEq, Repr

/-- The reason of a DENY (R44). -/
inductive DenyReason where
  | rights
  | miss
  | span
  | profile
deriving DecidableEq, Repr

/-- The kind of a verdict with the fields that R44 gives that kind. -/
inductive Answer where
  | permit (source : Source) (ticket : Option TicketNo) (attrs : Attributes)
  | permitWatched (source : Source) (ticket : Option TicketNo) (attrs : Attributes)
  | deny (reason : DenyReason) (source : Option Source)
  | retry
  | backoff
deriving DecidableEq, Repr

/-- A verdict (R44). -/
structure Verdict where
  requester : Requester
  tag : LookupTag
  answer : Answer
deriving DecidableEq, Repr

/-- The Lookup Engine: both lists have their oldest entry first (R34, R45, R46, R173). -/
structure LookupEngine where
  queue : List QueueEntry
  verdicts : List Verdict
  reserve : Nat
  /-- a set: no pair stands twice -/
  inFlight : List (Requester × LookupTag)
deriving DecidableEq, Repr

/-- A ticket (R53). -/
inductive Ticket where
  | free
  | counted (requester : Requester) (slot : Slot)
  | orphan (requester : Requester)
deriving DecidableEq, Repr

/-- The Ticket Pool (R53, R54). -/
structure TicketPool where
  tickets : Vector Ticket 32
  useCount : Vector Nat 64
deriving DecidableEq, Repr

/-- Whether counting may take place (R100). -/
inductive TimerState where
  | stopped
  | running
deriving DecidableEq, Repr

/-- REFCLK ticks per count (R100). -/
inductive Prescale where
  | off
  | by1
  | by16
  | by256
  | by4096
deriving DecidableEq, Repr

/-- The Lease Timer (R100). -/
structure LeaseTimer where
  state : TimerState
  grace : Bool
  prescale : Prescale
  prescaleCount : Nat
  period : Nat
  counter : Nat
  drainLimit : BitVec 4
deriving DecidableEq, Repr

/-- The walk of the Sweep Engine (R106). -/
inductive Walk where
  | idle
  | walking (next : Slot) (endMark : Bool)
deriving DecidableEq, Repr

/-- The Sweep Engine. `yields` is true from a release point that ends one of its visits with another claim present, to
the next grant or to the withdrawal of the last other claim (the walk yield, R126; log entry 12). -/
structure SweepEngine where
  walk : Walk
  yields : Bool
deriving DecidableEq, Repr

/-- A requester profile (R169). -/
structure Profile where
  enabled : Bool
  privilege : Privilege
  urgency : Urgency
deriving DecidableEq, Repr

/-- The source of a violation (R175). -/
inductive ViolationSource where
  | slot (n : Slot)
  | defaultRecord
  | span
deriving DecidableEq, Repr

/-- The outcome of a violation (R175). -/
inductive ViolationOutcome where
  | denied
  | watched
deriving DecidableEq, Repr

/-- The fields of a HELD violation record (R175). -/
structure Violation where
  address : Word
  lengthCode : BitVec 6
  kind : AccessKind
  source : ViolationSource
  outcome : ViolationOutcome
  overrun : Bool
deriving DecidableEq, Repr

/-- A command as it is queued or held: number, tag, header operand, data words (R139, R182). -/
structure Command where
  number : BitVec 8
  tag : CommandTag
  operand : BitVec 20
  data : List Word
deriving DecidableEq, Repr

/-- An entry of the Command Queue (R139). -/
structure HostCommand where
  command : Command
  privilege : Privilege
deriving DecidableEq, Repr

/-- The command assembler; `remaining` is the words still to come (R135). -/
inductive Assembler where
  | idle
  | collecting (command : Command) (remaining : Nat)
  | discard (remaining : Nat)
deriving DecidableEq, Repr

/-- The statuses of section 4.10. -/
inductive Status where
  | ok
  | drained
  | forced
  | fabricReset
  | none
  | owner
  | notFree
  | notStaged
  | notLive
  | notStagedOrLive
  | leaseGone
  | badTemplate
  | badSupersede
  | badField
  | privilege
  | busy
  | reserveConflict
  | unknownCommand
deriving DecidableEq, Repr

/-- A response: its header is computed from its tag, its status and the number of its data words (R183). -/
structure Response where
  tag : CommandTag
  status : Status
  data : List Word
deriving DecidableEq, Repr

/-- The kinds of the protocol status, with the requester that the Check Port kinds carry (R150). -/
inductive ProtocolKind where
  | tagReuse (requester : Requester)
  | badKind (requester : Requester)
  | unknownTicket (requester : Requester)
  | wrongRequester (requester : Requester)
  | commandOverflow
deriving DecidableEq, Repr

/-- The Host Port (R133 to R151). The level events are computed from their conditions (R149).
`readData` is the model's own: the word the last read of RESPONSE put on the bus (log entry 5). -/
structure HostPort where
  assembler : Assembler
  commands : List HostCommand
  responses : List Response
  /-- words of the head response already read -/
  wordsRead : Nat
  drainForced : Bool
  protocolEvent : Bool
  ownership : Bool
  enables : BitVec 6
  protocolStatus : Option ProtocolKind
  readData : Word
deriving DecidableEq, Repr

/-- The Maintenance Link; `command` is the command register and the engine's command in hand at once
(R156, R157, R186). -/
structure MaintLink where
  command : Option Command
  response : Option Response
  busy : Bool
  toolPresent : Bool
  capture : Option Frame
deriving DecidableEq, Repr

/-- The whole machine. `pending` and `freeReads` are the model's own (log entries 1 and 7). -/
structure State where
  table : WindowTable
  arbiter : Arbiter
  lookup : LookupEngine
  pool : TicketPool
  timer : LeaseTimer
  sweep : SweepEngine
  profiles : Vector Profile 16
  violations : Vector (Option Violation) 16
  host : HostPort
  /-- the Host Command Engine's command in hand (R143) -/
  hostHand : Option HostCommand
  maint : MaintLink
  /-- PORn is low (R187) -/
  pornLow : Bool
  /-- FRST is asserted (R68) -/
  frst : Bool
  /-- the number of free values taken so far -/
  freeReads : Nat
  /-- the commands that wait, the front one first -/
  pending : List Instr
deriving DecidableEq, Repr

/-- No behaviour of the spec stops the part, so the type has no constructor: nothing raises a fault. -/
inductive Fault where
deriving DecidableEq, Repr

/-- Why a command has no meaning. -/
inductive Refusal where
  /-- Raised by a refused arm of exec for a command with no meaning yet; safe: no next state is claimed. -/
  | notModelled (mnemonic : String)
deriving DecidableEq, Repr

/-- No rights at all (R12). -/
def Rights.empty : Rights := ⟨false, false, false⟩

/-- The whole of READ, WRITE, FETCH (R17). -/
def Rights.full : Rights := ⟨true, true, true⟩

/-- The cleared attributes (R12). -/
def Attributes.cleared : Attributes := ⟨.bits8, 0#4, false, .little, false⟩

/-- The cleared policy fields (R12). -/
def Policy.cleared : Policy := ⟨Rights.empty, Rights.empty, .enforce, Attributes.cleared⟩

/-- The record of a FREE slot: all fields cleared but the owner and an owed response (R12). -/
def Window.cleared (owner : Party) (owed : Option Owed) : Window :=
  { state := .free, owner, base := 0#20, mask := 0#20, rank := 0#3, members := 0#16,
    policy := Policy.cleared, reload := 0#8, remaining := 0#8, fresh := false, owed }

/-- Right after power-on reset (R25, R52, R72, R120, R121, R154, R155, R167, R169, R173, R175), with strap
levels 0, FRST not asserted and nothing captured: DESIGN CHOICE (log entries 2, 3, 5, 6). -/
def State.reset : State :=
  { table :=
      { windows := Vector.replicate 64 (Window.cleared .host none)
        defaultRecord := ⟨Rights.empty, Rights.empty, .enforce, ⟨.bits8, 15#4, false, .little, false⟩⟩
        bootRecord := ⟨Rights.full, Rights.full, ⟨.bits8, 15#4, false, .little, false⟩⟩
        mode := .boot
        expiry := Vector.replicate 64 false }
    arbiter := { holder := none, hostWait := 0 }
    lookup := { queue := [], verdicts := [], reserve := 2, inFlight := [] }
    pool := { tickets := Vector.replicate 32 .free, useCount := Vector.replicate 64 0 }
    timer := { state := .stopped, grace := false, prescale := .off, prescaleCount := 0,
               period := 65535, counter := 0, drainLimit := 4#4 }
    sweep := { walk := .idle, yields := false }
    profiles := Vector.replicate 16 ⟨true, .user, .normal⟩
    violations := Vector.replicate 16 none
    host := { assembler := .idle, commands := [], responses := [], wordsRead := 0, drainForced := false,
              protocolEvent := false, ownership := false, enables := 0#6, protocolStatus := none,
              readData := 0#32 }
    hostHand := none
    maint := { command := none, response := none, busy := false, toolPresent := false, capture := none }
    pornLow := false
    frst := false
    freeReads := 0
    pending := [] }

end Sys2Proof.Machine
end

