-- ==== Sys2Proof/Machine/Operands.lean ====
section
/-! DEFINITION. Every layout of the chapter Formats and Signals: the record words in their written and reported
forms, the command header and its operands, the response and status codes. -/

namespace Sys2Proof.Machine

/-! ## Fields of a word -/

/-- The 6-bit slot number that stands at bit `lo` of a word. -/
def slotField {w : Nat} (word : BitVec w) (lo : Nat) : Slot := Fin.ofNat 64 (word.extractLsb' lo 6).toNat

/-- The 4-bit number, 0 to 15, that stands at bit `lo` of a word. -/
def nibbleField {w : Nat} (word : BitVec w) (lo : Nat) : Fin 16 := Fin.ofNat 16 (word.extractLsb' lo 4).toNat

/-- A slot number in 6 bits. -/
def slotBits (n : Slot) : BitVec 6 := BitVec.ofNat 6 n.val

/-- A requester number or a tag in 4 bits. -/
def nibbleBits (n : Fin 16) : BitVec 4 := BitVec.ofNat 4 n.val

/-- The page number of an address, bits 31 to 12 (R4, R13). -/
def pageOf (address : Word) : Page := address.extractLsb' 12 20

/-- The address of the last byte of an access, any carry out of bit 31 discarded (R38). -/
def lastByte (address : Word) (lengthCode : BitVec 6) : Word := address + lengthCode.setWidth 32

/-! ## Window record words (R180, R181) -/

/-- READ, WRITE, FETCH in bits 0, 1, 2. -/
def Rights.bits (r : Rights) : BitVec 3 := BitVec.ofBool r.fetch ++ BitVec.ofBool r.write ++ BitVec.ofBool r.read

/-- The rights that three bits give. -/
def Rights.ofBits (b : BitVec 3) : Rights := ⟨b.getLsbD 0, b.getLsbD 1, b.getLsbD 2⟩

/-- Width code: 00b 8 bits, 01b 16, 10b 32, 11b 64. -/
def BusWidth.bits : BusWidth → BitVec 2
  | .bits8 => 0#2
  | .bits16 => 1#2
  | .bits32 => 2#2
  | .bits64 => 3#2

/-- The width that a code names; every code names one (R180). -/
def BusWidth.ofBits (b : BitVec 2) : BusWidth :=
  if b = 0#2 then .bits8 else if b = 1#2 then .bits16 else if b = 2#2 then .bits32 else .bits64

/-- Byte order code: 0 LITTLE, 1 BIG. -/
def ByteOrder.big? : ByteOrder → Bool
  | .little => false
  | .big => true

/-- The byte order that a code names. -/
def ByteOrder.ofBool (b : Bool) : ByteOrder := if b then .big else .little

/-- The nine attribute bits, the policy word's bits 18 to 10 and the verdict channel's CVD_ATTR (R180, R185). -/
def Attributes.bits (a : Attributes) : BitVec 9 :=
  BitVec.ofBool a.cacheable ++ BitVec.ofBool a.byteOrder.big? ++ BitVec.ofBool a.burst ++ a.waitProfile ++ a.width.bits

/-- The attributes that nine bits give. -/
def Attributes.ofBits (b : BitVec 9) : Attributes :=
  { width := BusWidth.ofBits (b.extractLsb' 0 2), waitProfile := b.extractLsb' 2 4, burst := b.getLsbD 6,
    byteOrder := ByteOrder.ofBool (b.getLsbD 7), cacheable := b.getLsbD 8 }

/-- Mode code: 00b ENFORCE, 01b WATCH. -/
def EnforceMode.bits : EnforceMode → BitVec 2
  | .enforce => 0#2
  | .watch => 1#2

/-- The policy word in the written form (R180). -/
def Policy.word (p : Policy) : Word :=
  0#13 ++ p.attrs.bits ++ p.mode.bits ++ 0#1 ++ p.supervisor.bits ++ 0#1 ++ p.user.bits

/-- The policy fields that a policy word supplies. -/
def Policy.ofWord (w : Word) : Policy :=
  { user := Rights.ofBits (w.extractLsb' 0 3), supervisor := Rights.ofBits (w.extractLsb' 4 3),
    mode := if w.getLsbD 8 then .watch else .enforce, attrs := Attributes.ofBits (w.extractLsb' 10 9) }

/-- The positions of the policy word that belong to no field: 3, 7 and 31 to 19. -/
def policyStray : Word := 0xFFF80088#32

/-- The positions of the membership word that belong to no field: 31 to 19. -/
def membershipStray : Word := 0xFFF80000#32

/-- The positions of the mask word that belong to no field: bit 2. -/
def maskStray : Word := 0x00000004#32

/-- A policy word passes when its mode is no reserved code (10b, 11b) and no stray position holds a 1 (R180). -/
def policyWordGood (w : Word) : Bool := !w.getLsbD 9 && w &&& policyStray == 0#32

/-- A membership word passes when no stray position holds a 1 (R180). -/
def membershipWordGood (w : Word) : Bool := w &&& membershipStray == 0#32

/-- The target-present bit of a written mask word (R180). -/
def targetPresent (maskWord : Word) : Bool := maskWord.getLsbD 3

/-- The target slot bits of a written record: bits 5 and 4 stand in the mask word, bits 3 to 0 in the base
word (R180). -/
def targetBits (baseWord maskWord : Word) : BitVec 6 := maskWord.extractLsb' 0 2 ++ baseWord.extractLsb' 0 4

/-- The supersede target that a written record supplies. -/
def suppliedTarget (baseWord maskWord : Word) : Option Slot :=
  if targetPresent maskWord then some (slotField (targetBits baseWord maskWord) 0) else none

/-- The membership word in the written form (R180). -/
def Window.membershipWord (w : Window) : Word := 0#13 ++ w.rank ++ w.members

/-- The supersede target field as six bits, 0 when absent. -/
def Window.target (w : Window) : Option Slot :=
  match w.state with
  | .staged target => target
  | .free | .live | .draining _ _ => none

/-- An optional slot in six bits, absent reported as 0 (R181). -/
def optionSlotBits : Option Slot → BitVec 6
  | some n => slotBits n
  | none => 0#6

/-- The base word, the same in both forms (R180, R181). -/
def Window.baseWord (w : Window) : Word :=
  w.base ++ w.reload ++ (optionSlotBits w.target).extractLsb' 0 4

/-- The mask word, the same in both forms (R180, R181). -/
def Window.maskWord (w : Window) : Word :=
  w.mask ++ w.remaining ++ BitVec.ofBool w.target.isSome ++ 0#1 ++ (optionSlotBits w.target).extractLsb' 4 2

/-- State code: 00b FREE, 01b STAGED, 10b LIVE, 11b DRAINING (R181). -/
def WindowState.bits : WindowState → BitVec 2
  | .free => 0#2
  | .staged _ => 1#2
  | .live => 2#2
  | .draining _ _ => 3#2

/-- Owner or party code: 0 HOST, 1 MAINT (R181). -/
def partyBit : Party → Bool
  | .host => false
  | .maint => true

/-- Drain cause code: 01b RETIRE, 10b EXPIRY, 11b SUPERSEDE (R181). -/
def DrainCause.bits : DrainCause → BitVec 2
  | .retire => 1#2
  | .expiry => 2#2
  | .supersede => 3#2

/-- Drain cause and age of a record, 0 when absent (R181). -/
def WindowState.drainBits : WindowState → BitVec 6
  | .draining cause age => cause.bits ++ age
  | .free | .staged _ | .live => 0#6

/-- Owed response outcome code: 00b none yet, 01b DRAINED, 10b FORCED, 11b FABRIC_RESET (R181). -/
def outcomeBits : Option DrainOutcome → BitVec 2
  | none => 0#2
  | some .drained => 1#2
  | some .forced => 2#2
  | some .fabricReset => 3#2

/-- Owed response party and presence, the reported policy word's bits 31 and 30 (R181). -/
def owedBits : Option Owed → BitVec 2
  | some o => BitVec.ofBool (partyBit o.party) ++ 1#1
  | none => 0#2

/-- Owed response outcome of a record, 0 when none is present (R181). -/
def owedOutcomeBits : Option Owed → BitVec 2
  | some o => outcomeBits o.outcome
  | none => 0#2

/-- The policy word in the reported form (R181). -/
def Window.reportedPolicyWord (w : Window) : Word :=
  owedBits w.owed ++ w.state.drainBits ++ owedOutcomeBits w.owed ++ 0#3 ++ w.policy.attrs.bits ++ w.policy.mode.bits
    ++ 0#1 ++ w.policy.supervisor.bits ++ 0#1 ++ w.policy.user.bits

/-- The membership word in the reported form (R181). -/
def Window.reportedMembershipWord (w : Window) (useCount : Nat) : Word :=
  0#2 ++ BitVec.ofNat 6 useCount ++ BitVec.ofBool w.fresh ++ BitVec.ofBool (partyBit w.owner) ++ w.state.bits
    ++ 0#1 ++ w.rank ++ w.members

/-- The four words that [QRY] returns: base, policy, membership, mask (R96, R181). -/
def Window.reportedWords (w : Window) (useCount : Nat) : List Word :=
  [w.baseWord, w.reportedPolicyWord, w.reportedMembershipWord useCount, w.maskWord]

/-! ## Commands (R182) -/

/-- The commands by their symbols (R182). -/
inductive CommandSym where
  | stg | abn | cmt | rtr | rnw | mod | qry | rex
  | sdf | ten | tds | own
  | spr | srv | rvs
  | tcf | tst | tsp
  | grt | rcl
deriving DecidableEq, Repr

/-- A row of the command table of R182. -/
structure CommandRow where
  number : BitVec 8
  sym : CommandSym
  words : Nat
  onHost : Bool
  onTool : Bool
deriving DecidableEq, Repr

/-- The command table (R182). -/
def commandTable : List CommandRow :=
  [ ⟨0x10#8, .stg, 5, true, true⟩,
    ⟨0x11#8, .abn, 1, true, true⟩,
    ⟨0x12#8, .cmt, 1, true, true⟩,
    ⟨0x13#8, .rtr, 1, true, true⟩,
    ⟨0x14#8, .rnw, 1, true, true⟩,
    ⟨0x15#8, .mod, 4, true, true⟩,
    ⟨0x16#8, .qry, 1, true, true⟩,
    ⟨0x17#8, .rex, 1, true, true⟩,
    ⟨0x20#8, .sdf, 2, true, false⟩,
    ⟨0x21#8, .ten, 1, true, false⟩,
    ⟨0x22#8, .tds, 1, true, false⟩,
    ⟨0x23#8, .own, 1, true, false⟩,
    ⟨0x30#8, .spr, 1, true, false⟩,
    ⟨0x31#8, .srv, 1, true, false⟩,
    ⟨0x32#8, .rvs, 1, true, false⟩,
    ⟨0x40#8, .tcf, 2, true, false⟩,
    ⟨0x41#8, .tst, 1, true, false⟩,
    ⟨0x42#8, .tsp, 1, true, false⟩,
    ⟨0x50#8, .grt, 1, false, true⟩,
    ⟨0x51#8, .rcl, 1, false, true⟩ ]

/-- Whether a row is on a party's path. -/
def CommandRow.onPath (r : CommandRow) : Party → Bool
  | .host => r.onHost
  | .maint => r.onTool

/-- The row of a command number on a party's path; none when the number names no command there (R138, R159). -/
def rowOn (party : Party) (number : BitVec 8) : Option CommandRow :=
  commandTable.find? fun r => r.number == number && r.onPath party

/-- The command that a number names on a party's path. -/
def symOn (party : Party) (number : BitVec 8) : Option CommandSym := (rowOn party number).map CommandRow.sym

/-- The word count that a number fixes on a party's path; a number that names no command there has one word
(R135, R138). -/
def wordsOn (party : Party) (number : BitVec 8) : Nat :=
  match rowOn party number with
  | some r => r.words
  | none => 1

/-- The commands that need supervisor privilege on the host path (R141). -/
def CommandSym.supervisorOnly : CommandSym → Bool
  | .sdf | .ten | .tds | .spr | .srv | .rvs | .tcf | .tst | .tsp => true
  | .stg | .abn | .cmt | .rtr | .rnw | .mod | .qry | .rex | .own | .grt | .rcl => false

/-- The commands carried out under a grant (R122, R141). -/
def CommandSym.needsGrant : CommandSym → Bool
  | .stg | .abn | .cmt | .rtr | .rnw | .mod | .qry | .rex | .sdf | .ten | .tds | .own | .grt | .rcl => true
  | .spr | .srv | .rvs | .tcf | .tst | .tsp => false

/-- The command that a header begins, with no data word yet (R182). -/
def Command.ofHeader (header : Word) : Command :=
  { number := header.extractLsb' 24 8, tag := nibbleField header 20, operand := header.extractLsb' 0 20, data := [] }

/-- The command of a frame: the positions after its last word are not read (R156, R186). -/
def Command.ofFrame (frame : Frame) : Command :=
  let command := Command.ofHeader frame.header
  { command with
    data := [frame.word1, frame.word2, frame.word3, frame.word4].take (wordsOn .maint command.number - 1) }

/-- The k-th data word of a command, from 0. -/
def Command.word (c : Command) (k : Nat) : Word := c.data.getD k 0#32

/-- The slot that a command names: header operand bits 5 to 0 (R182). -/
def Command.slot (c : Command) : Slot := slotField c.operand 0

/-- The last slot of a [GRT] or [RCL] range: header operand bits 13 to 8 (R182). -/
def Command.lastSlot (c : Command) : Slot := slotField c.operand 8

/-- The requester that [SPR] or [RVS] names: header operand bits 3 to 0 (R182). -/
def Command.requester (c : Command) : Requester := nibbleField c.operand 0

/-- The profile that [SPR] carries (R170, R182). -/
def Command.profile (c : Command) : Profile :=
  { enabled := c.operand.getLsbD 8
    privilege := if c.operand.getLsbD 9 then .supervisor else .user
    urgency := if c.operand.getLsbD 10 then .urgent else .normal }

/-- The reserve that [SRV] carries: header operand bits 3 to 0 (R182). -/
def Command.reserve (c : Command) : Nat := (c.operand.extractLsb' 0 4).toNat

/-- The reload action of [RNW]: the new reload of a REPLACE, or the old one under KEEP; none for a reserved code
(R91, R182). -/
def Command.newReload (c : Command) (old : BitVec 8) : Option (BitVec 8) :=
  if c.operand.extractLsb' 8 2 = 0#2 then some old
  else if c.operand.extractLsb' 8 2 = 1#2 then some (c.operand.extractLsb' 10 8)
  else none

/-- The record word that [MOD] selects (R93). -/
inductive RecordWord where
  | policy
  | membership
deriving DecidableEq, Repr

/-- The selector of [MOD], bits 1 to 0 of its first data word: none for a reserved code (R94, R182). -/
def Command.selected (c : Command) : Option RecordWord :=
  if (c.word 0).extractLsb' 0 2 = 0#2 then some .policy
  else if (c.word 0).extractLsb' 0 2 = 1#2 then some .membership
  else none

/-- A masked modify: the value's bit where the mask holds a 1, the old word's where it holds a 0 (R93). -/
def maskedWord (old value mask : Word) : Word := (value &&& mask) ||| (old &&& ~~~mask)

/-- The old word that [MOD] reads, in the written form (R93, R181). -/
def Window.selectedWord (w : Window) : RecordWord → Word
  | .policy => w.policy.word
  | .membership => w.membershipWord

/-- The test of a word's fields (R94, R180). -/
def RecordWord.good : RecordWord → Word → Bool
  | .policy, word => policyWordGood word
  | .membership, word => membershipWordGood word

/-- A window with one of its two modifiable words replaced (R93). -/
def Window.withSelectedWord (w : Window) (selected : RecordWord) (word : Word) : Window :=
  match selected with
  | .policy => { w with policy := Policy.ofWord word }
  | .membership => { w with members := word.extractLsb' 0 16, rank := word.extractLsb' 16 3 }

/-- The prescale that [TCF] carries in header operand bits 2 to 0: none for a reserved code (R103, R182). -/
def Command.prescale (c : Command) : Option Prescale :=
  let code := c.operand.extractLsb' 0 3
  if code = 0#3 then some .off
  else if code = 1#3 then some .by1
  else if code = 2#3 then some .by16
  else if code = 3#3 then some .by256
  else if code = 4#3 then some .by4096
  else none

/-- The drain limit that [TCF] carries: header operand bits 11 to 8 (R182). -/
def Command.drainLimit (c : Command) : BitVec 4 := c.operand.extractLsb' 8 4

/-- The period that [TCF] carries: bits 15 to 0 of its data word (R182). -/
def Command.period (c : Command) : Nat := ((c.word 0).extractLsb' 0 16).toNat

/-- REFCLK ticks per count; OFF stops counting and gives none (R100). -/
def Prescale.ticks : Prescale → Option Nat
  | .off => none
  | .by1 => some 1
  | .by16 => some 16
  | .by256 => some 256
  | .by4096 => some 4096

/-- Access kind of a request's 2-bit code: 11b is reserved (R185). -/
def AccessKind.ofCode (code : BitVec 2) : Option AccessKind :=
  if code = 0#2 then some .read else if code = 1#2 then some .write else if code = 2#2 then some .fetch else none

/-- Access kind code of the [RVS] record word (R183). -/
def AccessKind.bits : AccessKind → BitVec 2
  | .read => 0#2
  | .write => 1#2
  | .fetch => 2#2

/-! ## Responses (R183) -/

/-- Status codes (R183). -/
def Status.code : Status → BitVec 8
  | .ok => 0x00#8
  | .drained => 0x01#8
  | .forced => 0x02#8
  | .fabricReset => 0x03#8
  | .none => 0x04#8
  | .owner => 0x10#8
  | .notFree => 0x11#8
  | .notStaged => 0x12#8
  | .notLive => 0x13#8
  | .notStagedOrLive => 0x14#8
  | .leaseGone => 0x15#8
  | .badTemplate => 0x16#8
  | .badSupersede => 0x17#8
  | .badField => 0x18#8
  | .privilege => 0x19#8
  | .busy => 0x1A#8
  | .reserveConflict => 0x1B#8
  | .unknownCommand => 0x1C#8

/-- The status of a retire's response for each outcome of its drain (R63, R89). -/
def DrainOutcome.status : DrainOutcome → Status
  | .drained => .drained
  | .forced => .forced
  | .fabricReset => .fabricReset

/-- The word count of a response, its header included (R144). -/
def Response.wordCount (r : Response) : Nat := r.data.length + 1

/-- The header word of a response (R183). -/
def Response.header (r : Response) : Word :=
  0#8 ++ nibbleBits r.tag ++ 0#4 ++ r.status.code ++ 0#5 ++ BitVec.ofNat 3 r.wordCount

/-- The words of a response in the order they are read (R144). -/
def Response.words (r : Response) : List Word := r.header :: r.data

/-- What a read of an empty Response Queue or response register returns: tag 0, status NONE, word count 1
(R145, R158, R183). -/
def Response.empty : Response := ⟨0, .none, []⟩

/-- The response frame: the response with zero words after its last word (R186). -/
def Response.frame (r : Response) : Frame :=
  ⟨r.header, r.data.getD 0 0#32, r.data.getD 1 0#32, r.data.getD 2 0#32, r.data.getD 3 0#32⟩

/-- A response with no data word. -/
def Command.reply (c : Command) (status : Status) : Response := ⟨c.tag, status, []⟩

/-- A response with data words. -/
def Command.replyWith (c : Command) (status : Status) (data : List Word) : Response := ⟨c.tag, status, data⟩

/-- The outcome, source kind and source slot of a violation in the [RVS] record word (R183). -/
def ViolationSource.bits : ViolationSource → BitVec 2 × BitVec 6
  | .slot n => (1#2, slotBits n)
  | .defaultRecord => (2#2, 0#6)
  | .span => (3#2, 0#6)

/-- Outcome bit of the [RVS] record word: 0 DENY, 1 WATCHED (R183). -/
def ViolationOutcome.watched? : ViolationOutcome → Bool
  | .denied => false
  | .watched => true

/-- The [RVS] record word of a HELD record (R183). -/
def Violation.recordWord (v : Violation) : Word :=
  0#2 ++ v.source.bits.2 ++ 0#2 ++ v.source.bits.1 ++ 0#2 ++ v.kind.bits ++ 0#2 ++ v.lengthCode ++ 0#2
    ++ BitVec.ofBool v.overrun ++ BitVec.ofBool v.outcome.watched? ++ 0#3 ++ 1#1

/-- The two data words of [RVS]; an EMPTY record is two zero words (R177, R183). -/
def violationWords : Option Violation → List Word
  | some v => [v.recordWord, v.address]
  | none => [0#32, 0#32]

/-! ## Straps (R17, R187) -/

/-- The boot record's attributes that the straps give (R17). -/
def strapAttributes (straps : Straps) : Attributes :=
  { width := BusWidth.ofBits straps.width, waitProfile := 15#4, burst := false,
    byteOrder := ByteOrder.ofBool straps.bigEndian, cacheable := false }

end Sys2Proof.Machine
end

