-- ==== Sys2Proof/Machine/Access.lean ====
section
/-! DEFINITION. Reading and writing one piece of the state: windows, use counts, tickets, profiles, violation
records, and the fields of the blocks that several commands write. -/

namespace Sys2Proof.Machine

/-- Window n (R1). -/
def State.win (s : State) (n : Slot) : Window := s.table.windows[n.val]

/-- The use count of slot n (R54). -/
def State.use (s : State) (n : Slot) : Nat := s.pool.useCount[n.val]

/-- Ticket t (R53). -/
def State.ticket (s : State) (t : TicketNo) : Ticket := s.pool.tickets[t.val]

/-- The profile of a requester (R169). -/
def State.profile (s : State) (r : Requester) : Profile := s.profiles[r.val]

/-- The violation record of a requester (R175). -/
def State.violation (s : State) (r : Requester) : Option Violation := s.violations[r.val]

/-- Whether slot n is a member of the expiry set (R20). -/
def State.expired (s : State) (n : Slot) : Bool := s.table.expiry[n.val]

/-- The command in the engine of a party (R143, R156). -/
def State.inHand (s : State) : Party → Option Command
  | .host => s.hostHand.map HostCommand.command
  | .maint => s.maint.command

/-- All windows replaced at once. -/
def State.setWindows (s : State) (windows : Vector Window 64) : State := { s with table := { s.table with windows } }

/-- Window n replaced. -/
def State.setWin (s : State) (n : Slot) (w : Window) : State := s.setWindows (s.table.windows.set n.val w)

/-- Each window replaced by a function of its slot and itself. -/
def State.mapWindows (s : State) (f : Slot → Window → Window) : State :=
  s.setWindows (Vector.ofFn fun n => f n (s.win n))

/-- The expiry set with slot n added or removed (R20). -/
def State.setExpired (s : State) (n : Slot) (member : Bool) : State :=
  { s with table := { s.table with expiry := s.table.expiry.set n.val member } }

/-- The table mode set (R99). -/
def State.setMode (s : State) (mode : TableMode) : State := { s with table := { s.table with mode } }

/-- The default record replaced (R98). -/
def State.setDefault (s : State) (defaultRecord : Policy) : State :=
  { s with table := { s.table with defaultRecord } }

/-- Ticket t replaced. -/
def State.setTicket (s : State) (t : TicketNo) (ticket : Ticket) : State :=
  { s with pool := { s.pool with tickets := s.pool.tickets.set t.val ticket } }

/-- The use count of slot n replaced. -/
def State.setUse (s : State) (n : Slot) (count : Nat) : State :=
  { s with pool := { s.pool with useCount := s.pool.useCount.set n.val count } }

/-- The profile of a requester replaced (R170). -/
def State.setProfile (s : State) (r : Requester) (p : Profile) : State :=
  { s with profiles := s.profiles.set r.val p }

/-- The violation record of a requester replaced (R176, R177). -/
def State.setViolation (s : State) (r : Requester) (v : Option Violation) : State :=
  { s with violations := s.violations.set r.val v }

/-- The walk replaced. -/
def State.setWalk (s : State) (walk : Walk) : State := { s with sweep := { s.sweep with walk } }

/-- The command in hand of the Host Command Engine replaced. -/
def State.setHand (s : State) (hand : Option HostCommand) : State := { s with hostHand := hand }

/-- The lowest-numbered free ticket (R42, R55). -/
def State.freeTicket (s : State) : Option TicketNo := allTickets.find? fun t => s.ticket t == .free

/-- Whether a record is FREE. -/
def Window.isFree (w : Window) : Bool := match w.state with | .free => true | .staged _ | .live | .draining _ _ => false

/-- Whether a record is STAGED. -/
def Window.isStaged (w : Window) : Bool := match w.state with | .staged _ => true | .free | .live | .draining _ _ => false

/-- Whether a record is LIVE. -/
def Window.isLive (w : Window) : Bool := match w.state with | .live => true | .free | .staged _ | .draining _ _ => false

/-- Whether a record is DRAINING. -/
def Window.isDraining (w : Window) : Bool := match w.state with | .draining _ _ => true | .free | .staged _ | .live => false

/-- Whether a FREE slot is held by an owed response that waits for a place (R11, R76). -/
def Window.isHeld (w : Window) : Bool := w.isFree && w.owed.isSome

/-- The response that a slot's owed response of a party is, once its drain has ended (R11, R63). -/
def Window.waitingResponse (w : Window) (party : Party) : Option Response :=
  match w.owed with
  | some ⟨p, tag, some outcome⟩ => if w.isFree && p == party then some ⟨tag, outcome.status, []⟩ else none
  | some ⟨_, _, none⟩ => none
  | none => none

/-- The lowest-numbered slot whose owed response of a party waits (R147, R161). -/
def State.lowestWaiting (s : State) (party : Party) : Option Slot :=
  allSlots.find? fun n => ((s.win n).waitingResponse party).isSome

/-- How many owed responses of a party wait: owed count and owed waiting (R134, R157). -/
def State.waitingCount (s : State) (party : Party) : Nat :=
  allSlots.countP fun n => ((s.win n).waitingResponse party).isSome

end Sys2Proof.Machine
end

