-- ==== Sys2Proof/Machine/Flags.lean ====
section
/-! DEFINITION. Everything the part shows without being changed: the ready lines, the event sets and INT, the
readable registers, the link status, the verdict channel, and the claims the Table Arbiter sees. -/

namespace Sys2Proof.Machine

/-! ## Room -/

/-- Places of the Command Queue neither filled nor reserved (R134, R135). -/
def State.commandPlacesFree (s : State) : Nat :=
  let reserved := match s.host.assembler with
    | .collecting _ _ => 1
    | .idle | .discard _ => 0
  Config.commandPlaces - (s.host.commands.length + reserved)

/-- A place of the Response Queue is free (R140). -/
def State.responsePlaceFree (s : State) : Bool := s.host.responses.length < Config.responsePlaces

/-- Whether a party has room for a response: a Response Queue place, or the empty response register (R63). -/
def State.roomFor (s : State) : Party → Bool
  | .host => s.responsePlaceFree
  | .maint => s.maint.response.isNone

/-- A place of the Verdict Buffer is free (R28, R35). -/
def State.verdictPlaceFree (s : State) : Bool := s.lookup.verdicts.length < Config.verdictPlaces

/-- Free places of the Lookup Queue (R32). -/
def State.lookupPlacesFree (s : State) : Nat := Config.lookupPlaces - s.lookup.queue.length

/-- Entries of the Lookup Queue that arrived NORMAL (R173). -/
def State.normalQueued (s : State) : Nat := s.lookup.queue.countP fun e => e.arrivalClass == .normal

/-- Admission of a request by its arrival class (R32). -/
def State.admits (s : State) : Urgency → Bool
  | .normal => s.lookup.reserve < s.lookupPlacesFree
  | .urgent => 0 < s.lookupPlacesFree

/-! ## Claims and the grant (R122 to R128) -/

/-- The Maintenance Command Engine holds a command that needs the table and its response can be placed (R128). -/
def State.maintClaims (s : State) : Bool :=
  match s.maint.command with
  | some c => (symOn .maint c.number).isSome && s.roomFor .maint
  | none => false

/-- The Lookup Engine has a head entry and a free verdict place (R35). -/
def State.lookupClaims (s : State) : Bool := !s.lookup.queue.isEmpty && s.verdictPlaceFree

/-- The Host Command Engine holds a command, and its response can be placed (R127). -/
def State.hostClaims (s : State) : Bool :=
  s.hostHand.isSome && s.responsePlaceFree && (s.lowestWaiting .host).isNone

/-- A claimant other than the Sweep Engine claims. -/
def State.othersClaim (s : State) : Bool := s.maintClaims || s.lookupClaims || s.hostClaims

/-- The Sweep Engine is WALKING; after its own visit it yields to any other claim (R106, R126, log entry 12). -/
def State.sweepClaims (s : State) : Bool :=
  s.sweep.walk != .idle && !(s.sweep.yields && s.othersClaim)

/-- The claimant that the arbiter grants the table to: maintenance, sweep, lookup, host, with the host ahead of
the lookup when its wait count stands at 8 (R123, R124). -/
def State.grantee (s : State) : Option Claimant :=
  if s.arbiter.holder.isSome then none
  else if s.maintClaims then some .maint
  else if s.sweepClaims then some .sweep
  else if s.hostClaims && (s.arbiter.hostWait == Config.ageLimit || !s.lookupClaims) then some .host
  else if s.lookupClaims then some .lookup
  else none

/-- The Host Command Engine takes the head of the Command Queue when these four hold: no command in hand, a
command queued, a response place free, no host owed response waiting (R140). -/
def State.mayTake (s : State) : Bool :=
  s.hostHand.isNone && !s.host.commands.isEmpty && s.responsePlaceFree && (s.lowestWaiting .host).isNone

/-! ## Events and INT (R149, R151) -/

/-- RESPONSE: the Response Queue holds at least one response. -/
def State.responsePending (s : State) : Bool := !s.host.responses.isEmpty

/-- EXPIRY: the expiry set holds at least one slot owned by HOST (R21). -/
def State.expiryPending (s : State) : Bool := allSlots.any fun n => s.expired n && (s.win n).owner == .host

/-- VIOLATION: at least one record is HELD (R179). -/
def State.violationPending (s : State) : Bool := (List.finRange 16).any fun r => (s.violation r).isSome

/-- The event pending set, bits 0 to 5 (R184). -/
def State.pendingBits (s : State) : BitVec 6 :=
  BitVec.ofBool s.host.ownership ++ BitVec.ofBool s.host.protocolEvent ++ BitVec.ofBool s.host.drainForced
    ++ BitVec.ofBool s.violationPending ++ BitVec.ofBool s.expiryPending ++ BitVec.ofBool s.responsePending

/-- INT: a kind is both pending and enabled (R151); held low while PORn is low (R187). -/
def State.int (s : State) : Bool := !s.pornLow && (s.pendingBits &&& s.host.enables) != 0#6

/-! ## The readable registers (R133, R134, R184) -/

/-- STATUS (R134, R184). -/
def State.statusWord (s : State) : Word :=
  let assembler : BitVec 3 × BitVec 2 := match s.host.assembler with
    | .idle => (0#3, 0#2)
    | .collecting _ remaining => (BitVec.ofNat 3 remaining, 1#2)
    | .discard remaining => (BitVec.ofNat 3 remaining, 2#2)
  0#1 ++ assembler.1 ++ 0#2 ++ assembler.2 ++ 0#1 ++ BitVec.ofNat 7 (s.waitingCount .host) ++ 0#3
    ++ BitVec.ofNat 5 s.host.responses.length ++ 0#4 ++ BitVec.ofNat 4 s.commandPlacesFree

/-- Protocol status kind and requester, EVENT PENDING bits 18 to 16 and 23 to 20 (R184). -/
def protocolBits : Option ProtocolKind → BitVec 4 × BitVec 3
  | none => (0#4, 0#3)
  | some (.tagReuse r) => (nibbleBits r, 1#3)
  | some (.badKind r) => (nibbleBits r, 2#3)
  | some (.unknownTicket r) => (nibbleBits r, 3#3)
  | some (.wrongRequester r) => (nibbleBits r, 4#3)
  | some .commandOverflow => (0#4, 5#3)

/-- EVENT PENDING (R184). -/
def State.eventPendingWord (s : State) : Word :=
  0#8 ++ (protocolBits s.host.protocolStatus).1 ++ 0#1 ++ (protocolBits s.host.protocolStatus).2 ++ 0#10 ++ s.pendingBits

/-- EVENT ENABLE (R184). -/
def State.eventEnableWord (s : State) : Word := 0#26 ++ s.host.enables

/-- The word that a read of RESPONSE returns: the next word of the head response, or the empty header (R145). -/
def State.responseWord (s : State) : Word :=
  match s.host.responses with
  | [] => Response.empty.header
  | r :: _ => r.words.getD s.host.wordsRead 0#32

/-- The word that a host read of a register returns, at either privilege; 0 while PORn is low (R133, R184, R187). -/
def State.hostRead (s : State) (register : HostRegister) : Word :=
  if s.pornLow then 0#32
  else match register with
    | .command | .portControl | .none18 | .none1C => 0#32
    | .response => s.responseWord
    | .status => s.statusWord
    | .eventPending => s.eventPendingWord
    | .eventEnable => s.eventEnableWord

/-! ## The link status (R157, R186) -/

/-- A register of the Maintenance Link that the test access port selects (R186). -/
inductive LinkRegister where
  | command
  | response
  | status
deriving DecidableEq, Repr

/-- The instruction of the test access port that selects a link register: LINKCMD, LINKRSP, LINKSTAT (R186). -/
def LinkRegister.code : LinkRegister → BitVec 6
  | .command => 0x24#6
  | .response => 0x25#6
  | .status => 0x26#6

/-- The bits of a link register's data path (R186). -/
def LinkRegister.length : LinkRegister → Nat
  | .command | .response => 160
  | .status => 32

/-- The link register that an instruction code selects; other instructions reach none (R186). -/
def LinkRegister.ofCode (code : BitVec 6) : Option LinkRegister :=
  if code = 0x24#6 then some .command
  else if code = 0x25#6 then some .response
  else if code = 0x26#6 then some .status
  else none

/-- The link status register, which a LINKSTAT capture reads (R157, R186). While PORn is low the spec gives it no value,
and the word is computed from the state as it stands: DESIGN CHOICE (log entry 4), unsafe. -/
def State.linkStatusWord (s : State) : Word :=
  0#17 ++ BitVec.ofNat 7 (s.waitingCount .maint) ++ 0#4 ++ BitVec.ofBool s.maint.toolPresent
    ++ BitVec.ofBool s.maint.busy ++ BitVec.ofBool s.maint.response.isSome ++ BitVec.ofBool s.maint.command.isSome

/-- The frame that a LINKRSP capture takes: the response, or the empty header with zero words (R158, R186). -/
def State.responseFrame (s : State) : Frame :=
  match s.maint.response with
  | some r => r.frame
  | none => Response.empty.frame

/-! ## The Check Port (R28, R45, R56, R185) -/

/-- CREQ_READY (R28, R187). -/
def State.requestReady (s : State) : Bool := !s.pornLow && !s.frst && s.verdictPlaceFree

/-- CCP_READY (R56, R187). -/
def State.completionReady (s : State) : Bool := !s.pornLow && !s.frst

/-- CVD_VALID (R45, R185, R187). -/
def State.verdictValid (s : State) : Bool := !s.pornLow && !s.frst && !s.lookup.verdicts.isEmpty

/-- The fields of the verdict channel (R185). -/
structure VerdictBundle where
  rq : BitVec 4
  tag : BitVec 2
  kind : BitVec 3
  reason : BitVec 3
  src : BitVec 2
  slot : BitVec 6
  tkv : BitVec 1
  tkt : BitVec 5
  attr : BitVec 9
deriving DecidableEq, Repr

/-- CVD_KIND (R185). -/
def Answer.kindBits : Answer → BitVec 3
  | .permit _ _ _ => 0#3
  | .permitWatched _ _ _ => 1#3
  | .deny _ _ => 2#3
  | .retry => 3#3
  | .backoff => 4#3

/-- CVD_REASON (R185). -/
def DenyReason.bits : DenyReason → BitVec 3
  | .rights => 1#3
  | .miss => 2#3
  | .span => 3#3
  | .profile => 4#3

/-- CVD_SRC and CVD_SLOT (R185). -/
def sourceBits : Option Source → BitVec 2 × BitVec 6
  | none => (0#2, 0#6)
  | some (.slot n) => (1#2, slotBits n)
  | some .defaultRecord => (2#2, 0#6)
  | some .boot => (3#2, 0#6)

/-- The source of an answer, absent where R44 gives none. -/
def Answer.source : Answer → Option Source
  | .permit source _ _ => some source
  | .permitWatched source _ _ => some source
  | .deny _ source => source
  | .retry | .backoff => none

/-- The ticket of an answer, absent where R44 gives none. -/
def Answer.ticket : Answer → Option TicketNo
  | .permit _ ticket _ => ticket
  | .permitWatched _ ticket _ => ticket
  | .deny _ _ | .retry | .backoff => none

/-- A verdict on the wires: every absent field is driven as 0 (R185). -/
def Verdict.bundle (v : Verdict) : VerdictBundle :=
  { rq := nibbleBits v.requester
    tag := BitVec.ofNat 2 v.tag.val
    kind := v.answer.kindBits
    reason := match v.answer with
      | .deny reason _ => reason.bits
      | .permit _ _ _ | .permitWatched _ _ _ | .retry | .backoff => 0#3
    src := (sourceBits v.answer.source).1
    slot := (sourceBits v.answer.source).2
    tkv := BitVec.ofBool v.answer.ticket.isSome
    tkt := match v.answer.ticket with
      | some t => BitVec.ofNat 5 t.val
      | none => 0#5
    attr := match v.answer with
      | .permit _ _ attrs => attrs.bits
      | .permitWatched _ _ attrs => attrs.bits
      | .deny _ _ | .retry | .backoff => 0#9 }

/-- The verdict presented on the channel: the oldest (R45). -/
def State.presentedVerdict (s : State) : Option VerdictBundle :=
  if s.verdictValid then s.lookup.verdicts.head?.map Verdict.bundle else none

end Sys2Proof.Machine
end

