-- ==== Sys2Proof/Machine/Ops.lean ====
section
/-! DEFINITION. The operations that several commands share: events, responses, owed responses, the ends and
entries of drains, the grant of the Table Arbiter, and the taking of host commands. -/

namespace Sys2Proof.Machine

/-- What an event does while the part is out of power-on reset; while PORn is low nothing happens inside the part
(R187, log entry 4). -/
def State.whilePowered (s : State) (after : State) : State := if s.pornLow then s else after

/-! ## Events (R149, R150) -/

/-- A PROTOCOL occurrence: the status is filled when EMPTY and kept otherwise (R150). -/
def State.raiseProtocol (s : State) (kind : ProtocolKind) : State :=
  { s with host := { s.host with protocolEvent := true, protocolStatus := some (s.host.protocolStatus.getD kind) } }

/-- A DRAIN_FORCED occurrence (R65). -/
def State.raiseDrainForced (s : State) : State := { s with host := { s.host with drainForced := true } }

/-- An OWNERSHIP occurrence (R164). -/
def State.raiseOwnership (s : State) : State := { s with host := { s.host with ownership := true } }

/-! ## Responses (R63, R75, R144, R160) -/

/-- A response placed: at the tail of the Response Queue, or in the response register. -/
def State.place (s : State) (party : Party) (r : Response) : State :=
  match party with
  | .host => { s with host := { s.host with responses := s.host.responses ++ [r] } }
  | .maint => { s with maint := { s.maint with response := some r } }

/-- An owed response that waits enters its party's queue or register when there is room, lowest slot first, and
its slot is no longer held (R63, R147, R161). -/
def State.admitOwed (s : State) (party : Party) : State :=
  match s.lowestWaiting party with
  | none => s
  | some n =>
    match (s.win n).waitingResponse party with
    | none => s
    | some r => if s.roomFor party then (s.setWin n { s.win n with owed := none }).place party r else s

/-- Waiting owed responses of a party enter one after another, up to 64 of them (R148, R161). -/
def State.admitAllOwed (s : State) (party : Party) : State :=
  allSlots.foldl (fun s _ => s.admitOwed party) s

/-! ## Drains (R22, R61, R63, R65) -/

/-- An owed response completed with the outcome of the ending (R11). -/
def Owed.complete (o : Owed) (outcome : DrainOutcome) : Owed := { o with outcome := some outcome }

/-- A drain ended: FREE and cleared, but for the owner and an owed response, which takes the outcome (R12, R22). -/
def Window.endDrain (w : Window) (outcome : DrainOutcome) : Window :=
  Window.cleared w.owner (w.owed.map fun o => o.complete outcome)

/-- The drain of slot n ends; an owed response is offered to its party (R22, R63). -/
def State.endDrain (s : State) (n : Slot) (outcome : DrainOutcome) : State :=
  let freed := s.setWin n ((s.win n).endDrain outcome)
  match (s.win n).owed with
  | none => freed
  | some o => freed.admitOwed o.party

/-- A window leaves LIVE for DRAINING; with a use count of 0 it passes through to FREE at once, and no owed response
is written (R61). -/
def Window.enterDrain (w : Window) (cause : DrainCause) (owed : Option Owed) (useCount : Nat) : Window :=
  if useCount = 0 then Window.cleared w.owner none
  else { w with state := .draining cause 0#4, fresh := false, owed }

/-! ## Host commands (R139 to R143) -/

/-- The Host Command Engine takes the head command in hand when it may take one and the head is a table command
that passes the number and privilege checks (R140, R141, R143). The taking of any other head command is that
command's own row. -/
def State.takeInHand (s : State) : State :=
  match s.host.commands with
  | [] => s
  | c :: rest =>
    match symOn .host c.command.number with
    | none => s
    | some sym =>
      if s.mayTake && sym.needsGrant && !(sym.supervisorOnly && c.privilege == .user) then
        { s with hostHand := some c, host := { s.host with commands := rest } }
      else s

/-- The head of the Command Queue leaves it as it is taken (R140). -/
def State.dropHead (s : State) : State := { s with host := { s.host with commands := s.host.commands.tail } }

/-- The head command is answered at its taking: it leaves the queue, its response is placed, and the engine may take
the next command (R141, R142). -/
def State.answerTaken (s : State) (r : Response) : State := (s.dropHead.place .host r).takeInHand

/-- A command carried out at its taking: PRIVILEGE when a supervisor command was written at user privilege, else its
effect and response (R141, R142). -/
def State.runAtTaking (s : State) (sym : CommandSym) (effect : Command → State → State × Response) : State :=
  match s.host.commands with
  | [] => s
  | c :: _ =>
    if s.mayTake && symOn .host c.command.number == some sym then
      if sym.supervisorOnly && c.privilege == .user then s.answerTaken (c.command.reply .privilege)
      else (effect c.command s).1.answerTaken (effect c.command s).2
    else s

/-- A supervisor table command at the head of the queue, written at user privilege, is answered PRIVILEGE at its
taking, without a grant (R74, R141). -/
def State.refuseUserPrivilege (s : State) (sym : CommandSym) : State :=
  match s.host.commands with
  | [] => s
  | c :: _ =>
    if s.mayTake && symOn .host c.command.number == some sym && c.privilege == .user then
      s.answerTaken (c.command.reply .privilege)
    else s

/-! ## Table operations under a grant (R122 to R129, R143, R160) -/

/-- The engine that carries out a party's table commands. -/
def engineOf : Party → Claimant
  | .host => .host
  | .maint => .maint

/-- The host wait count at a grant: up by one, to 8 at most, at a grant to the Lookup Engine while the host claims;
0 at a grant to the host; kept otherwise (R125). -/
def State.hostWaitAtGrant (s : State) : Claimant → Nat
  | .lookup => if s.hostClaims then min Config.ageLimit (s.arbiter.hostWait + 1) else s.arbiter.hostWait
  | .host => 0
  | .maint | .sweep => s.arbiter.hostWait

/-- The arbiter hands the table to a claimant, which becomes the grant holder; the walk yield is used up (R123,
R125, R126). -/
def State.grantTo (s : State) (c : Claimant) : State :=
  { s with arbiter := { holder := some c, hostWait := s.hostWaitAtGrant c }, sweep := { s.sweep with yields := false } }

/-- An event that may withdraw a claim has taken place: a walk yield with no other claim left to serve is over, so the
Sweep Engine's claim is made and stands (R106, R126, log entry 12). -/
def State.settleYield (s : State) : State :=
  { s with sweep := { s.sweep with yields := s.sweep.yields && s.othersClaim } }

/-- The end of a table operation: the grant holder returns to NONE (R123). -/
def State.release (s : State) : State := { s with arbiter := { s.arbiter with holder := none } }

/-- A party's table operation ends: its response, if it has one, is placed, the command in hand is cleared, and the
host's engine may take the next command (R143, R160). -/
def State.finishCommand (s : State) (party : Party) (response : Option Response) : State :=
  let placed := match response with
    | some r => s.place party r
    | none => s
  match party with
  | .host => (placed.release.setHand none).takeInHand
  | .maint => { placed.release with maint := { placed.release.maint with command := none } }

/-- A table command carried out at its grant: it runs when the party's engine holds that command and the arbiter
grants the table to that engine; otherwise no operation takes place (R122, R123, log entry 1). -/
def State.runGranted (s : State) (party : Party) (sym : CommandSym)
    (operation : Party → Command → State → State × Option Response) : State :=
  match s.inHand party with
  | none => s
  | some c =>
    if symOn party c.number == some sym && s.grantee == some (engineOf party) then
      let result := operation party c (s.grantTo (engineOf party))
      result.1.finishCommand party result.2
    else s

/-- A supervisor table command of the host: its table operation at the grant, or its PRIVILEGE refusal at the taking
(R74, R141). -/
def State.runSupervisor (s : State) (sym : CommandSym)
    (operation : Party → Command → State → State × Option Response) : State :=
  if s.hostHand.isSome then s.runGranted .host sym operation else s.refuseUserPrivilege sym

/-- A table operation that the refusal of a command leaves: nothing changed, the status answered (R74). -/
def State.refuse (s : State) (c : Command) (status : Status) : State × Option Response := (s, some (c.reply status))

end Sys2Proof.Machine
end

