-- ==== Sys2Proof/Machine/CheckPort.lean ====
section
/-! DEFINITION. The Check Port: lookup requests, lookups, verdict departures, completion notices and FRST (chapters
2 and 3). -/

namespace Sys2Proof.Machine

/-! ## Arrival (R27 to R33) -/

/-- A pair joins the in-flight set (R30). -/
def LookupEngine.joinFlight (l : LookupEngine) (pair : Requester × LookupTag) : LookupEngine :=
  { l with inFlight := l.inFlight ++ [pair] }

/-- The admission of a request of a good kind: queued with its arrival class, or answered BACKOFF, which may take the
place that the Lookup Engine's claim needs (R30 to R33, R35). -/
def State.admitRequest (s : State) (q : LookupRequest) (kind : AccessKind) : State :=
  let urgency := (s.profile q.requester).urgency
  let joined := s.lookup.joinFlight (q.requester, q.tag)
  if s.admits urgency then
    { s with lookup := { joined with queue := joined.queue ++ [⟨q.requester, q.tag, q.address, q.lengthCode, kind, urgency⟩] } }
  else
    let refused : State :=
      { s with lookup := { joined with verdicts := joined.verdicts ++ [⟨q.requester, q.tag, .backoff⟩] } }
    refused.settleYield

/-- The arrival of a request: the tag check, the kind check, then admission (R29, R30). -/
def State.arrive (s : State) (q : LookupRequest) : State :=
  if s.lookup.inFlight.contains (q.requester, q.tag) then s.raiseProtocol (.tagReuse q.requester)
  else match AccessKind.ofCode q.kindCode with
    | none => s.raiseProtocol (.badKind q.requester)
    | some kind => s.admitRequest q kind

/-- LOOKUP_REQUEST: accepted while the request channel is ready, else it waits at the fabric and nothing changes
(R28). -/
def execLookupRequest (q : LookupRequest) (s : State) : Host.Outcome State Fault Refusal :=
  .next (if s.requestReady then s.arrive q else s)

/-! ## The decision under a grant (R36 to R43) -/

/-- The access is within the rights for a privilege (R6). -/
def Policy.permits (p : Policy) (privilege : Privilege) (kind : AccessKind) : Bool :=
  let rights := match privilege with
    | .user => p.user
    | .supervisor => p.supervisor
  match kind with
  | .read => rights.read
  | .write => rights.write
  | .fetch => rights.fetch

/-- A window's template and requester set match a page and a requester (R13). -/
def Window.covers (w : Window) (page : Page) (r : Requester) : Bool :=
  (page &&& w.mask) == w.base && w.members.getLsbD r.val

/-- A window takes part in a lookup and matches it (R13, R14). -/
def State.matchesAt (s : State) (page : Page) (r : Requester) (n : Slot) : Bool :=
  (s.win n).isLive && (s.win n).covers page r

/-- The winning window: of the matching LIVE windows those of the highest rank, and of these the lowest slot
(R14). -/
def State.winner (s : State) (page : Page) (r : Requester) : Option Slot :=
  allSlots.find? fun n =>
    s.matchesAt page r n && allSlots.all fun m => !s.matchesAt page r m || (s.win m).rank ≤ (s.win n).rank

/-- What steps 1 to 5 of a decision settle: a denial with its source and the violation it hands over, or a
permission with the record that gives it and, for a failure of the rights under WATCH, the violation it hands over
(R36, R41, R43). -/
inductive Ruling where
  | deny (reason : DenyReason) (source : Option Source) (violation : Option ViolationSource)
  | permit (watched : Option ViolationSource) (source : Source) (attrs : Attributes)
deriving DecidableEq, Repr

/-- Rights and mode of the decider (R41). -/
def Policy.rule (p : Policy) (privilege : Privilege) (kind : AccessKind) (source : Source)
    (violation : ViolationSource) (reason : DenyReason) : Ruling :=
  if p.permits privilege kind then .permit none source p.attrs
  else match p.mode with
    | .enforce => .deny reason (some source) (some violation)
    | .watch => .permit (some violation) source p.attrs

/-- The record that covers the first byte of an access, for a DENY with reason SPAN (R38). -/
def State.spanSource (s : State) (e : QueueEntry) : Source :=
  match s.table.mode with
  | .boot => .boot
  | .active =>
    match s.winner (pageOf e.address) e.requester with
    | some n => .slot n
    | none => .defaultRecord

/-- Steps 1 to 5 of the decision of a lookup: profile, span, table mode, decider, rights and mode (R36 to R41). -/
def State.ruling (s : State) (e : QueueEntry) : Ruling :=
  let profile := s.profile e.requester
  if !profile.enabled then .deny .profile none none
  else if pageOf e.address != pageOf (lastByte e.address e.lengthCode) then
    .deny .span (some (s.spanSource e)) (some .span)
  else match s.table.mode with
    | .boot => .permit none .boot s.table.bootRecord.attrs
    | .active =>
      match s.winner (pageOf e.address) e.requester with
      | some n => (s.win n).policy.rule profile.privilege e.kind (.slot n) (.slot n) .rights
      | none => s.table.defaultRecord.rule profile.privilege e.kind .defaultRecord .defaultRecord .miss

/-- A violation handed to Violation Status: it fills an EMPTY record, and sets the overrun of a HELD one (R43,
R176). -/
def State.recordViolation (s : State) (e : QueueEntry) (source : ViolationSource) (outcome : ViolationOutcome) : State :=
  s.setViolation e.requester <| some <|
    match s.violation e.requester with
    | none => ⟨e.address, e.lengthCode, e.kind, source, outcome, false⟩
    | some held => { held with overrun := true }

/-- A ticket allocated: COUNTED, naming the slot and the requester, and the slot's use count up by 1 (R42, R55). -/
def State.allocate (s : State) (t : TicketNo) (r : Requester) (n : Slot) : State :=
  (s.setTicket t (.counted r n)).setUse n (s.use n + 1)

/-- The verdict of the head entry enters the Verdict Buffer and the entry leaves the queue (R34, R36). -/
def State.placeVerdict (s : State) (e : QueueEntry) (answer : Answer) : State :=
  { s with lookup := { s.lookup with
      queue := s.lookup.queue.tail, verdicts := s.lookup.verdicts ++ [⟨e.requester, e.tag, answer⟩] } }

/-- The answer that gives a permission (R41, R44). -/
def permission (watched : Bool) (source : Source) (ticket : Option TicketNo) (attrs : Attributes) : Answer :=
  if watched then .permitWatched source ticket attrs else .permit source ticket attrs

/-- The violation that a ruling hands over, if it hands one (R43). -/
def State.recordAny (s : State) (e : QueueEntry) (violation : Option ViolationSource) (outcome : ViolationOutcome) :
    State :=
  match violation with
  | some v => s.recordViolation e v outcome
  | none => s

/-- A ruling carried out: a permission under a window takes the lowest free ticket or turns into RETRY, which
records nothing (R42, R43). -/
def State.carryOut (s : State) (e : QueueEntry) : Ruling → State
  | .deny reason source violation => (s.recordAny e violation .denied).placeVerdict e (.deny reason source)
  | .permit watched (.slot n) attrs =>
    match s.freeTicket with
    | none => s.placeVerdict e .retry
    | some t =>
      ((s.allocate t e.requester n).recordAny e watched .watched).placeVerdict e
        (permission watched.isSome (.slot n) (some t) attrs)
  | .permit watched .defaultRecord attrs =>
    (s.recordAny e watched .watched).placeVerdict e (permission watched.isSome .defaultRecord none attrs)
  | .permit watched .boot attrs =>
    (s.recordAny e watched .watched).placeVerdict e (permission watched.isSome .boot none attrs)

/-- The table operation of one lookup (R36). -/
def State.decideLookup (s : State) (e : QueueEntry) : State :=
  let granted := s.grantTo .lookup
  (granted.carryOut e (granted.ruling e)).release

/-- The head lookup decided, when the arbiter grants the table to the Lookup Engine (R35, R124). -/
def State.runLookup (s : State) : State :=
  match s.lookup.queue with
  | [] => s
  | e :: _ => if s.grantee == some .lookup then s.decideLookup e else s

/-- LOOKUP (R36). -/
def execLookup (s : State) : Host.Outcome State Fault Refusal := .next (s.whilePowered s.runLookup)

/-! ## Verdict departure (R45, R46) -/

/-- The oldest verdict leaves; its pair leaves the in-flight set (R45). -/
def State.departVerdict (s : State) : State :=
  match s.lookup.verdicts with
  | [] => s
  | v :: rest =>
    { s with lookup := { s.lookup with verdicts := rest, inFlight := s.lookup.inFlight.erase (v.requester, v.tag) } }

/-- VERDICT_DEPARTURE: the fabric accepts the verdict that the channel presents; none is presented while FRST is
asserted (R45, R68, R185). -/
def execVerdictDeparture (s : State) : Host.Outcome State Fault Refusal :=
  .next (if s.verdictValid then s.departVerdict else s)

/-! ## Completion notices (R56 to R58) -/

/-- An accepted notice of a COUNTED ticket: the ticket is free, the slot's use count falls, and a DRAINING slot whose
count reaches 0 ends its drain, whose owed response may take the place that a claim needs (R58, R22, R127). -/
def State.completeCounted (s : State) (t : TicketNo) (n : Slot) : State :=
  let freed := (s.setTicket t .free).setUse n (s.use n - 1)
  if (s.win n).isDraining && s.use n - 1 == 0 then (freed.endDrain n .drained).settleYield else freed

/-- The check and the effect of a completion notice (R57, R58). -/
def State.complete (s : State) (t : TicketNo) (r : Requester) : State :=
  match s.ticket t with
  | .free => s.raiseProtocol (.unknownTicket r)
  | .orphan holder => if holder = r then s.setTicket t .free else s.raiseProtocol (.wrongRequester r)
  | .counted holder n => if holder = r then s.completeCounted t n else s.raiseProtocol (.wrongRequester r)

/-- COMPLETION_NOTICE: accepted while the completion channel is ready (R56). -/
def execCompletionNotice (t : TicketNo) (r : Requester) (s : State) : Host.Outcome State Fault Refusal :=
  .next (if s.completionReady then s.complete t r else s)

/-! ## Fabric reset (R50, R68, R69) -/

/-- The Lookup Engine emptied; the reserve stays (R50, R51). -/
def LookupEngine.emptied (l : LookupEngine) : LookupEngine := { l with queue := [], verdicts := [], inFlight := [] }

/-- The Ticket Pool emptied (R69). -/
def TicketPool.emptied : TicketPool := ⟨Vector.replicate 32 .free, Vector.replicate 64 0⟩

/-- The record of a slot after a fabric reset: a DRAINING window is FREE with outcome FABRIC_RESET, any other is kept
(R69, R71). -/
def Window.atFabricReset (w : Window) : Window := if w.isDraining then w.endDrain .fabricReset else w

/-- The effect of a fabric reset: emptied engine and pool, DRAINING windows freed, their owed responses offered in
ascending slot order, the Lookup Engine's claim withdrawn (R69, R129, R148, R161). -/
def State.resetFabric (s : State) : State :=
  let freed := { s with lookup := s.lookup.emptied, pool := TicketPool.emptied }.mapWindows
    fun _ w => w.atFabricReset
  ((freed.admitAllOwed .host).admitAllOwed .maint).settleYield

/-- FABRIC_RESET: the rising edge of FRST; while FRST stays asserted nothing further is done (R68). -/
def execFabricReset (s : State) : Host.Outcome State Fault Refusal :=
  .next (if s.frst then s else { s.resetFabric with frst := true })

/-- FRST_RELEASE: the falling edge of FRST; the channels are ready again by their own conditions (R51, R68). -/
def execFrstRelease (s : State) : Host.Outcome State Fault Refusal := .next { s with frst := false }

end Sys2Proof.Machine
end

