-- ==== Sys2Proof/Machine/HostCommands.lean ====
section
/-! DEFINITION. The host commands carried out at their taking, without a grant: profiles, reserve, violation status
and the timer commands (chapters 5 and 9), and the answer to an unknown command number. -/

namespace Sys2Proof.Machine

/-- The effect of [SPR] (R170). -/
def sprEffect (c : Command) (s : State) : State × Response := (s.setProfile c.requester c.profile, c.reply .ok)

/-- The effect of [SRV]: the field check, then the check against the NORMAL entries queued (R173). -/
def srvEffect (c : Command) (s : State) : State × Response :=
  if 8 < c.reserve then (s, c.reply .badField)
  else if Config.lookupPlaces - c.reserve < s.normalQueued then (s, c.reply .reserveConflict)
  else ({ s with lookup := { s.lookup with reserve := c.reserve } }, c.reply .ok)

/-- The effect of [RVS]: the record is returned and made EMPTY (R177). -/
def rvsEffect (c : Command) (s : State) : State × Response :=
  (s.setViolation c.requester none, c.replyWith .ok (violationWords (s.violation c.requester)))

/-- The effect of [TCF]: BUSY while RUNNING, BAD_FIELD for period 0 or a reserved prescale, else all three items
written (R103). -/
def tcfEffect (c : Command) (s : State) : State × Response :=
  match s.timer.state, c.prescale with
  | .running, _ => (s, c.reply .busy)
  | .stopped, none => (s, c.reply .badField)
  | .stopped, some prescale =>
    if c.period = 0 then (s, c.reply .badField)
    else ({ s with timer := { s.timer with prescale, period := c.period, drainLimit := c.drainLimit } }, c.reply .ok)

/-- The effect of [TST]: a STOPPED timer starts from 0 with grace set (R104). -/
def tstEffect (c : Command) (s : State) : State × Response :=
  match s.timer.state with
  | .running => (s, c.reply .ok)
  | .stopped =>
    ({ s with timer := { s.timer with state := .running, grace := true, prescaleCount := 0, counter := 0 } }, c.reply .ok)

/-- The effect of [TSP] (R105). -/
def tspEffect (c : Command) (s : State) : State × Response :=
  ({ s with timer := { s.timer with state := .stopped, grace := false, prescaleCount := 0, counter := 0 } }, c.reply .ok)

/-- The host's head command, whose number names no host command, is answered at its taking (R138, R141). -/
def State.answerUnknownHost (s : State) : State :=
  match s.host.commands with
  | [] => s
  | c :: _ =>
    if s.mayTake && (symOn .host c.command.number).isNone then s.answerTaken (c.command.reply .unknownCommand) else s

/-- The tool's command, whose number names no command of its path, is answered at its taking and the command register
empties (R159). -/
def State.answerUnknownTool (s : State) : State :=
  match s.maint.command with
  | none => s
  | some c =>
    if (symOn .maint c.number).isNone && s.roomFor .maint then
      { s with maint := { s.maint with command := none, response := some (c.reply .unknownCommand) } }
    else s

/-- UNKNOWN_COMMAND (R141, R159). -/
def execUnknownCommand (party : Party) (s : State) : Host.Outcome State Fault Refusal :=
  .next <| s.whilePowered <| match party with
    | .host => s.answerUnknownHost
    | .maint => s.answerUnknownTool

/-- SPR (R170). -/
def execSpr (s : State) : Host.Outcome State Fault Refusal := .next (s.whilePowered (s.runAtTaking .spr sprEffect))

/-- SRV (R173). -/
def execSrv (s : State) : Host.Outcome State Fault Refusal := .next (s.whilePowered (s.runAtTaking .srv srvEffect))

/-- RVS (R177). -/
def execRvs (s : State) : Host.Outcome State Fault Refusal := .next (s.whilePowered (s.runAtTaking .rvs rvsEffect))

/-- TCF (R103). -/
def execTcf (s : State) : Host.Outcome State Fault Refusal := .next (s.whilePowered (s.runAtTaking .tcf tcfEffect))

/-- TST (R104). -/
def execTst (s : State) : Host.Outcome State Fault Refusal := .next (s.whilePowered (s.runAtTaking .tst tstEffect))

/-- TSP (R105). -/
def execTsp (s : State) : Host.Outcome State Fault Refusal := .next (s.whilePowered (s.runAtTaking .tsp tspEffect))

end Sys2Proof.Machine
end

