-- ==== Sys2Proof/Machine/HostPort.lean ====
section
/-! DEFINITION. The Host Port: command assembly, response reads, the event registers and port reset (chapter 7). -/

namespace Sys2Proof.Machine

/-! ## Command assembly (R135 to R138) -/

/-- A complete command enters the Command Queue with the privilege of the write that completed it, and the assembler
is IDLE (R136). -/
def State.enqueueCommand (s : State) (c : Command) (privilege : Privilege) : State :=
  { s with host := { s.host with assembler := .idle, commands := s.host.commands ++ [⟨c, privilege⟩] } }

/-- The assembler replaced. -/
def State.setAssembler (s : State) (assembler : Assembler) : State := { s with host := { s.host with assembler } }

/-- A word taken as a header (R135, R137). -/
def State.takeHeader (s : State) (privilege : Privilege) (word : Word) : State :=
  let c := Command.ofHeader word
  let more := wordsOn .host c.number - 1
  if s.commandPlacesFree = 0 then
    (s.setAssembler (if more = 0 then .idle else .discard more)).raiseProtocol .commandOverflow
  else if more = 0 then (s.enqueueCommand c privilege).takeInHand
  else s.setAssembler (.collecting c more)

/-- A word taken as the next data word of the command under assembly (R136). -/
def State.takeData (s : State) (privilege : Privilege) (word : Word) (c : Command) (remaining : Nat) : State :=
  let longer := { c with data := c.data ++ [word] }
  if remaining ≤ 1 then (s.enqueueCommand longer privilege).takeInHand
  else s.setAssembler (.collecting longer (remaining - 1))

/-- A write to COMMAND (R135 to R137). -/
def State.writeCommand (s : State) (privilege : Privilege) (word : Word) : State :=
  match s.host.assembler with
  | .idle => s.takeHeader privilege word
  | .collecting c remaining => s.takeData privilege word c remaining
  | .discard remaining => s.setAssembler (if remaining ≤ 1 then .idle else .discard (remaining - 1))

/-! ## Event registers and port reset (R150 to R152) -/

/-- A supervisor write to EVENT PENDING: each sticky kind written with 1 is cleared, and with PROTOCOL the protocol
status (R150). -/
def State.clearSticky (s : State) (word : Word) : State :=
  { s with host := { s.host with
      drainForced := s.host.drainForced && !word.getLsbD 3
      protocolEvent := s.host.protocolEvent && !word.getLsbD 4
      ownership := s.host.ownership && !word.getLsbD 5
      protocolStatus := if word.getLsbD 4 then none else s.host.protocolStatus } }

/-- A supervisor write to EVENT ENABLE (R151, R184). -/
def State.writeEnables (s : State) (word : Word) : State :=
  { s with host := { s.host with enables := word.extractLsb' 0 6 } }

/-- A window with an owed response of a party removed (R26, R152, R167). -/
def Window.dropOwed (w : Window) (party : Party) : Window :=
  match w.owed with
  | some o => if o.party = party then { w with owed := none } else w
  | none => w

/-- The Host Port after a port reset: the enable set and the bus word are kept (R152). -/
def HostPort.afterReset (h : HostPort) : HostPort :=
  { h with assembler := .idle, commands := [], responses := [], wordsRead := 0, drainForced := false,
           protocolEvent := false, ownership := false, protocolStatus := none }

/-- A port reset, with the host's claim withdrawn (R129, R152). -/
def State.resetPort (s : State) : State :=
  let dropped := { s with
    host := s.host.afterReset, hostHand := none, arbiter := { s.arbiter with hostWait := 0 } }.mapWindows
      fun _ w => w.dropOwed .host
  dropped.settleYield

/-! ## Writes and reads of the register window (R133, R145) -/

/-- A write on the host bus (R133, R184); every write is ignored while PORn is low (R187). -/
def State.hostWrite (s : State) (register : HostRegister) (privilege : Privilege) (word : Word) : State :=
  s.whilePowered <| match register, privilege with
    | .command, _ => s.writeCommand privilege word
    | .eventPending, .supervisor => s.clearSticky word
    | .eventEnable, .supervisor => s.writeEnables word
    | .portControl, .supervisor => if word.getLsbD 0 then s.resetPort else s
    | .eventPending, .user | .eventEnable, .user | .portControl, .user => s
    | .response, _ | .status, _ | .none18, _ | .none1C, _ => s

/-- The head response has had its last word read: it leaves, its place goes to the lowest waiting owed response, and
the engine may take a command (R145, R147, R140). -/
def State.endResponse (s : State) : State :=
  ({ s with host := { s.host with responses := s.host.responses.tail, wordsRead := 0 } }.admitOwed .host).takeInHand

/-- A read of RESPONSE advances the head response by one word (R145). -/
def State.advanceResponse (s : State) : State :=
  match s.host.responses with
  | [] => s
  | r :: _ =>
    if r.wordCount ≤ s.host.wordsRead + 1 then s.endResponse
    else { s with host := { s.host with wordsRead := s.host.wordsRead + 1 } }

/-- The word that a read puts on the host bus. -/
def State.putReadData (s : State) (word : Word) : State := { s with host := { s.host with readData := word } }

/-- RESPONSE_READ: the word read stands on the bus; while PORn is low it is 0 and nothing is removed (R145,
R187). -/
def execResponseRead (s : State) : Host.Outcome State Fault Refusal :=
  .next ((s.whilePowered s.advanceResponse).putReadData (s.hostRead .response))

/-- COMMAND_WORD (R135). -/
def execCommandWord (privilege : Privilege) (word : Word) (s : State) : Host.Outcome State Fault Refusal :=
  .next (s.hostWrite .command privilege word)

/-- CLEAR_DRAIN_FORCED: the write to EVENT PENDING that the row's word is (R150). -/
def execClearDrainForced (word : Word) (s : State) : Host.Outcome State Fault Refusal :=
  .next (s.hostWrite .eventPending .supervisor word)

/-- CLEAR_PROTOCOL: the write to EVENT PENDING that the row's word is (R150). -/
def execClearProtocol (word : Word) (s : State) : Host.Outcome State Fault Refusal :=
  .next (s.hostWrite .eventPending .supervisor word)

/-- CLEAR_OWNERSHIP: the write to EVENT PENDING that the row's word is (R150). -/
def execClearOwnership (word : Word) (s : State) : Host.Outcome State Fault Refusal :=
  .next (s.hostWrite .eventPending .supervisor word)

/-- EVENT_ENABLE_WRITE (R151). -/
def execEventEnableWrite (word : Word) (s : State) : Host.Outcome State Fault Refusal :=
  .next (s.hostWrite .eventEnable .supervisor word)

/-- PORT_RESET (R152). -/
def execPortReset (s : State) : Host.Outcome State Fault Refusal := .next (s.hostWrite .portControl .supervisor 1#32)

/-- IGNORED_WRITE: the write that the row's operands are, which changes nothing when they are well formed (R133). -/
def execIgnoredWrite (register : HostRegister) (privilege : Privilege) (word : Word) (s : State) :
    Host.Outcome State Fault Refusal :=
  .next (s.hostWrite register privilege word)

/-- OWED_RESPONSE: the lowest waiting owed response of a party enters its queue or register when there is room, and
for the host the engine may then take a command (R63, R140, R147, R161). -/
def execOwedResponse (party : Party) (s : State) : Host.Outcome State Fault Refusal :=
  .next <| s.whilePowered <| match party with
    | .host => (s.admitOwed .host).takeInHand
    | .maint => s.admitOwed .maint

end Sys2Proof.Machine
end

