-- ==== Sys2Proof/Machine/Maintenance.lean ====
section
/-! DEFINITION. The Maintenance Link and the ownership commands (chapter 8). -/

namespace Sys2Proof.Machine

/-! ## Frames and reads (R156, R158, R159) -/

/-- The four conditions of an arriving frame, which come down to two registers and no waiting response (R156). -/
def State.frameAccepted (s : State) : Bool :=
  s.maint.command.isNone && s.maint.response.isNone && (s.lowestWaiting .maint).isNone

/-- The arrival of a command frame: refused with BUSY, or accepted and taken by the engine, which answers an unknown
number at once (R156, R159). -/
def State.frameArrives (s : State) (frame : Frame) : State :=
  if s.frameAccepted then
    { s with maint := { s.maint with command := some (Command.ofFrame frame), busy := false } }.answerUnknownTool
  else { s with maint := { s.maint with busy := true } }

/-- An update of the test access port with an instruction code and the word shifted in: with LINKCMD it is the arrival
of the frame, ignored while PORn is low; no other instruction's update acts on the part (R156, R186, R187). -/
def State.linkUpdate (s : State) (code : BitVec 6) (frame : Frame) : State :=
  match LinkRegister.ofCode code with
  | some .command => s.whilePowered (s.frameArrives frame)
  | some .response | some .status => s
  | none => s

/-- COMMAND_FRAME: the update with LINKCMD (R156, R186). -/
def execCommandFrame (frame : Frame) (s : State) : Host.Outcome State Fault Refusal :=
  .next (s.linkUpdate LinkRegister.command.code frame)

/-- A LINKRSP capture: the response frame moves into the capture path, the register empties, and the lowest waiting
response enters it (R158, R161, R186). -/
def State.captureResponse (s : State) : State :=
  { s with maint := { s.maint with capture := some s.responseFrame, response := none } }.admitOwed .maint

/-- A LINKRSP capture while PORn is low: the spec does not say what it takes, so the frame is a free value (log entry
7). -/
def State.captureFree (s : State) : State :=
  { s with maint := { s.maint with capture := some (Config.captureInReset s.freeReads) }, freeReads := s.freeReads + 1 }

/-- A capture of the test access port with an instruction code: with LINKRSP it is the read of the response register; a
capture of the link status has no effect, and no other instruction's capture acts on the part (R157, R158, R186). -/
def State.linkCapture (s : State) (code : BitVec 6) : State :=
  match LinkRegister.ofCode code with
  | some .response => if s.pornLow then s.captureFree else s.captureResponse
  | some .command | some .status => s
  | none => s

/-- RESPONSE_REGISTER_READ: the capture with LINKRSP (R158, R186). -/
def execResponseRegisterRead (s : State) : Host.Outcome State Fault Refusal :=
  .next (s.linkCapture LinkRegister.response.code)

/-! ## Link reset (R167) -/

/-- A link reset: both registers and the capture path emptied, BUSY clear, MAINT owed responses removed, the
tool's claim withdrawn (R129, R167, R186). -/
def State.resetLink (s : State) : State :=
  let dropped := { s with
    maint := { s.maint with command := none, response := none, busy := false, capture := none } }.mapWindows
      fun _ w => w.dropOwed .maint
  dropped.settleYield

/-- LINK_RESET (R167). -/
def execLinkReset (s : State) : Host.Outcome State Fault Refusal := .next s.resetLink

/-! ## Moving slots (R162 to R164) -/

/-- A slot of the range first to last that moves: FREE, owned by the giving party, not held (R162). -/
def Window.moves (w : Window) (giver : Party) (first last n : Slot) : Bool :=
  first ≤ n && n ≤ last && w.isFree && !w.isHeld && w.owner == giver

/-- The number of slots that move (R162). -/
def State.moveCount (s : State) (giver : Party) (first last : Slot) : Nat :=
  allSlots.countP fun n => (s.win n).moves giver first last n

/-- A move of the FREE, unheld slots of a range from one party to the other, with OWNERSHIP when a slot moves
(R162, R164). -/
def moveOperation (giver receiver : Party) (c : Command) (s : State) : State × Option Response :=
  if c.lastSlot < c.slot then s.refuse c .badField
  else
    let moved := s.mapWindows fun n w => if w.moves giver c.slot c.lastSlot n then { w with owner := receiver } else w
    let count := s.moveCount giver c.slot c.lastSlot
    (if count = 0 then moved else moved.raiseOwnership, some (c.replyWith .ok [BitVec.ofNat 32 count]))

/-- The operation of [GRT] (R162). -/
def grtOperation (_party : Party) (c : Command) (s : State) : State × Option Response := moveOperation .maint .host c s

/-- The operation of [RCL] (R162). -/
def rclOperation (_party : Party) (c : Command) (s : State) : State × Option Response := moveOperation .host .maint c s

/-- GRT (R162). -/
def execGrt (s : State) : Host.Outcome State Fault Refusal :=
  .next (s.whilePowered (s.runGranted .maint .grt grtOperation))

/-- RCL (R162). -/
def execRcl (s : State) : Host.Outcome State Fault Refusal :=
  .next (s.whilePowered (s.runGranted .maint .rcl rclOperation))

end Sys2Proof.Machine
end

