-- ==== Sys2Proof/Machine/PowerOn.lean ====
section
/-! DEFINITION. Power-on reset: the two edges of PORn (R25, R187). -/

namespace Sys2Proof.Machine

/-- The owner of slot n after power-on reset (R155). -/
def powerOnOwner (straps : Straps) (n : Slot) : Party :=
  if straps.toolPresent && 48 ≤ n.val then .maint else .host

/-- The Window Table after power-on reset (R15, R17, R25, R155). -/
def powerOnTable (straps : Straps) : WindowTable :=
  { windows := Vector.ofFn fun n => Window.cleared (powerOnOwner straps n) none
    defaultRecord := ⟨Rights.empty, Rights.empty, .enforce, strapAttributes straps⟩
    bootRecord := ⟨Rights.full, Rights.full, strapAttributes straps⟩
    mode := .boot
    expiry := Vector.replicate 64 false }

/-- Every block at its power-on value (R52, R72, R120, R121, R154, R167, R169, R173, R175). The level of the FRST pin,
the free values taken and the waiting commands are kept (log entries 3, 7, 10). -/
def State.powerOn (s : State) (straps : Straps) : State :=
  { table := powerOnTable straps
    arbiter := { holder := none, hostWait := 0 }
    lookup := { queue := [], verdicts := [], reserve := 2, inFlight := [] }
    pool := { tickets := Vector.replicate 32 .free, useCount := Vector.replicate 64 0 }
    timer := { state := .stopped, grace := false, prescale := .off, prescaleCount := 0,
               period := 65535, counter := 0, drainLimit := 4#4 }
    sweep := { walk := .idle, yields := false }
    profiles := Vector.replicate 16 ⟨true, .user, .normal⟩
    violations := Vector.replicate 16 none
    host := { assembler := .idle, commands := [], responses := [], wordsRead := 0, drainForced := false,
              protocolEvent := false, ownership := false, enables := 0#6, protocolStatus := none,
              readData := 0#32 }
    hostHand := none
    maint := { command := none, response := none, busy := false, toolPresent := straps.toolPresent, capture := none }
    pornLow := false
    frst := s.frst
    freeReads := s.freeReads
    pending := s.pending }

/-- POWER_ON_RESET: the rising edge of PORn (R187). -/
def execPowerOnReset (straps : Straps) (s : State) : Host.Outcome State Fault Refusal := .next (s.powerOn straps)

/-- PORN_ASSERTION: PORn goes low; the outputs are held low and the ports ignore what arrives (R187). -/
def execPornAssertion (s : State) : Host.Outcome State Fault Refusal := .next { s with pornLow := true }

end Sys2Proof.Machine
end

