-- ==== Sys2Proof/Machine/Sweep.lean ====
section
/-! DEFINITION. The Lease Timer's ticks and sweep requests, and the Sweep Engine's visits (chapter 5). -/

namespace Sys2Proof.Machine

/-! ## Ticks and sweep requests (R101, R102, R107) -/

/-- A sweep request: absorbed by grace; else it starts a walk when the engine is IDLE in ACTIVE mode, or is dropped
(R102, R107). A yield to the claims at the release that ended the walk before stands (R126). -/
def State.sweepRequested (s : State) : State :=
  if s.timer.grace then { s with timer := { s.timer with grace := false } }
  else match s.sweep.walk, s.table.mode with
    | .idle, .active => s.setWalk (.walking 0 false)
    | .idle, .boot => s
    | .walking _ _, _ => s

/-- One count: the counter, on reaching the period, returns to 0 and produces a sweep request (R101). -/
def State.count (s : State) : State :=
  if s.timer.period ≤ s.timer.counter + 1 then { s with timer := { s.timer with counter := 0 } }.sweepRequested
  else { s with timer := { s.timer with counter := s.timer.counter + 1 } }

/-- One REFCLK tick (R101): not taken while the timer is STOPPED or its prescale is OFF. -/
def State.tick (s : State) : State :=
  match s.timer.state, s.timer.prescale.ticks with
  | .running, some ticks =>
    if ticks ≤ s.timer.prescaleCount + 1 then { s with timer := { s.timer with prescaleCount := 0 } }.count
    else { s with timer := { s.timer with prescaleCount := s.timer.prescaleCount + 1 } }
  | .running, none => s
  | .stopped, _ => s

/-- REFCLK_TICK (R101). -/
def execRefclkTick (s : State) : Host.Outcome State Fault Refusal := .next (s.whilePowered s.tick)

/-- The rest of the present period elapses: the counter reaches the period, both counts are 0, and the sweep request
is produced (R101, log entry 9). -/
def State.elapsePeriod (s : State) : State :=
  match s.timer.state, s.timer.prescale.ticks with
  | .running, some _ => { s with timer := { s.timer with prescaleCount := 0, counter := 0 } }.sweepRequested
  | .running, none => s
  | .stopped, _ => s

/-- SWEEP_REQUEST (R101). -/
def execSweepRequest (s : State) : Host.Outcome State Fault Refusal := .next (s.whilePowered s.elapsePeriod)

/-! ## What a visit does (R111 to R113) -/

/-- The window expires: remaining 0, DRAINING with cause EXPIRY or FREE, and the slot joins the expiry set (R112). -/
def State.expire (s : State) (n : Slot) : State :=
  (s.setWin n ({ s.win n with remaining := 0#8 }.enterDrain .expiry none (s.use n))).setExpired n true

/-- A visit to a LIVE window: fresh is cleared, or remaining is reduced and the window expires at 0; an unleased
window is passed over (R111). -/
def State.visitLive (s : State) (n : Slot) : State :=
  let w := s.win n
  if w.reload = 0#8 then s
  else if w.fresh then s.setWin n { w with fresh := false }
  else if w.remaining ≤ 1#8 then s.expire n
  else s.setWin n { w with remaining := w.remaining - 1#8 }

/-- A ticket made an ORPHAN when it is counted against slot n (R65). -/
def Ticket.orphanedFrom (n : Slot) : Ticket → Ticket
  | .counted r m => if m = n then .orphan r else .counted r m
  | .orphan r => .orphan r
  | .free => .free

/-- The tickets counted against slot n made ORPHAN and its use count 0 (R65). -/
def State.orphanTickets (s : State) (n : Slot) : State :=
  { s with pool := { s.pool with tickets := s.pool.tickets.map (Ticket.orphanedFrom n) } }.setUse n 0

/-- A forced drain (R65). -/
def State.forceDrain (s : State) (n : Slot) : State := ((s.orphanTickets n).endDrain n .forced).raiseDrainForced

/-- The drain age raised by 1; an age of 15 stays (R10, R64). -/
def nextAge (age : BitVec 4) : BitVec 4 := if age = 15#4 then 15#4 else age + 1#4

/-- A visit to a DRAINING window: its age is raised, and at a non-zero limit reached its drain is forced (R64,
R113). -/
def State.visitDraining (s : State) (n : Slot) (cause : DrainCause) (age : BitVec 4) : State :=
  if s.timer.drainLimit ≠ 0#4 ∧ s.timer.drainLimit ≤ nextAge age then s.forceDrain n
  else s.setWin n { s.win n with state := .draining cause (nextAge age) }

/-- The visit to slot n (R111). -/
def State.visitSlot (s : State) (n : Slot) : State :=
  match (s.win n).state with
  | .free => s
  | .staged _ => s
  | .live => s.visitLive n
  | .draining cause age => s.visitDraining n cause age

/-- The walk after the visit to slot n: the next slot, or IDLE after slot 63 (R108). -/
def walkAfter (n : Slot) : Walk := if n = 63 then .idle else .walking (n + 1) false

/-- The release point that ends a visit, the last one of a walk like any other: the engine yields when another claim is
present (R126). -/
def State.releaseVisit (s : State) : State :=
  { s.release with sweep := { s.release.sweep with yields := s.release.othersClaim } }

/-- The table operation of one visit; an end-marked walk ends and leaves its slot untouched (R108, R109). -/
def State.visit (s : State) (n : Slot) (endMark : Bool) : State :=
  let granted := s.grantTo .sweep
  (if endMark then granted.setWalk .idle else (granted.visitSlot n).setWalk (walkAfter n)).releaseVisit

/-- The visit to the next slot, when the arbiter grants the table to the Sweep Engine (R108, R124). -/
def State.runVisit (s : State) : State :=
  match s.sweep.walk with
  | .idle => s
  | .walking n endMark => if s.grantee == some .sweep then s.visit n endMark else s

/-- VISIT (R111). -/
def execVisit (s : State) : Host.Outcome State Fault Refusal := .next (s.whilePowered s.runVisit)

end Sys2Proof.Machine
end

