-- ==== Sys2Proof/Machine/TableCommands.lean ====
section
/-! DEFINITION. The table commands of both parties and the default record, table mode and ownership reads of the
host: each is one table operation under a grant (chapter 4, R165). -/

namespace Sys2Proof.Machine

/-! ## Staging (R80 to R83) -/

/-- The four record words of [STG] hold no reserved code and no stray 1, the target slot is 0 when no target is
present, and remaining does not exceed reload (R81, R180). -/
def stagedFieldsGood (baseWord policyWord membershipWord maskWord : Word) : Bool :=
  (maskWord.extractLsb' 4 8 : BitVec 8) ≤ baseWord.extractLsb' 4 8
    && policyWordGood policyWord && membershipWordGood membershipWord && maskWord &&& maskStray == 0#32
    && (targetPresent maskWord || targetBits baseWord maskWord == 0#6)

/-- The base holds no 1 where the mask holds a 0 (R4, R81). -/
def templateGood (base mask : Page) : Bool := base &&& ~~~mask == 0#20

/-- A STAGED window of either owner names slot t as its target (R82). -/
def State.namedAsTarget (s : State) (t : Slot) : Bool := allSlots.any fun n => (s.win n).target == some t

/-- The supersede target of a [STG] of slot n is acceptable (R82). -/
def State.targetGood (s : State) (party : Party) (n : Slot) : Option Slot → Bool
  | none => true
  | some t => t != n && (s.win t).isLive && (s.win t).owner == party && !s.namedAsTarget t

/-- The window that four written record words supply (R80, R180). -/
def stagedWindow (owner : Party) (baseWord policyWord membershipWord maskWord : Word) : Window :=
  { state := .staged (suppliedTarget baseWord maskWord), owner
    base := baseWord.extractLsb' 12 20, mask := maskWord.extractLsb' 12 20
    rank := membershipWord.extractLsb' 16 3, members := membershipWord.extractLsb' 0 16
    policy := Policy.ofWord policyWord
    reload := baseWord.extractLsb' 4 8, remaining := maskWord.extractLsb' 4 8
    fresh := false, owed := none }

/-- The operation of [STG] (R74, R76 to R82). -/
def stgOperation (party : Party) (c : Command) (s : State) : State × Option Response :=
  let w := s.win c.slot
  if w.owner ≠ party then s.refuse c .owner
  else if !w.isFree || w.isHeld then s.refuse c .notFree
  else if !stagedFieldsGood (c.word 0) (c.word 1) (c.word 2) (c.word 3) then s.refuse c .badField
  else if !templateGood ((c.word 0).extractLsb' 12 20) ((c.word 3).extractLsb' 12 20) then s.refuse c .badTemplate
  else if !s.targetGood party c.slot (suppliedTarget (c.word 0) (c.word 3)) then s.refuse c .badSupersede
  else (s.setWin c.slot (stagedWindow party (c.word 0) (c.word 1) (c.word 2) (c.word 3)), some (c.reply .ok))

/-- The operation of [ABN] (R83). -/
def abnOperation (party : Party) (c : Command) (s : State) : State × Option Response :=
  let w := s.win c.slot
  if w.owner ≠ party then s.refuse c .owner
  else if !w.isStaged then s.refuse c .notStaged
  else (s.setWin c.slot (Window.cleared w.owner none), some (c.reply .ok))

/-! ## Commit (R85, R86) -/

/-- Window n is STAGED and owned by the party. -/
def State.stagedBy (s : State) (party : Party) (n : Slot) : Bool := (s.win n).isStaged && (s.win n).owner == party

/-- The target that the party's STAGED window n names fails the test: not LIVE, or not the party's (R85). -/
def State.targetFails (s : State) (party : Party) (n : Slot) : Bool :=
  s.stagedBy party n && match (s.win n).target with
    | none => false
    | some t => !((s.win t).isLive && (s.win t).owner == party)

/-- The lowest-numbered staged slot whose test fails, with the target it names (R85). -/
def State.failingStaged (s : State) (party : Party) : Option (Slot × Slot) :=
  (allSlots.find? fun n => s.targetFails party n).bind fun n => (s.win n).target.map fun t => (n, t)

/-- A STAGED window of the party names slot t (R86). -/
def State.namedBy (s : State) (party : Party) (t : Slot) : Bool :=
  allSlots.any fun n => s.stagedBy party n && (s.win n).target == some t

/-- A committed window (R86). -/
def Window.commit (w : Window) : Window := { w with state := .live, remaining := w.reload, fresh := true }

/-- Window n after a commit that passes its test (R86). -/
def State.committed (s : State) (party : Party) (n : Slot) (w : Window) : Window :=
  if s.stagedBy party n then w.commit
  else if s.namedBy party n then w.enterDrain .supersede none (s.use n)
  else w

/-- How many windows a commit makes LIVE (R86). -/
def State.stagedCount (s : State) (party : Party) : Nat := allSlots.countP fun n => s.stagedBy party n

/-- The operation of [CMT] (R85, R86). -/
def cmtOperation (party : Party) (c : Command) (s : State) : State × Option Response :=
  match s.failingStaged party with
  | some (n, t) => (s, some (c.replyWith .badSupersede [0#18 ++ slotBits t ++ 0#2 ++ slotBits n]))
  | none => (s.mapWindows (s.committed party), some (c.replyWith .ok [BitVec.ofNat 32 (s.stagedCount party)]))

/-! ## Retire, renew, modify (R88, R91, R93, R94) -/

/-- The operation of [RTR] (R88). -/
def rtrOperation (party : Party) (c : Command) (s : State) : State × Option Response :=
  let w := s.win c.slot
  if w.owner ≠ party then s.refuse c .owner
  else if w.isDraining then s.refuse c .leaseGone
  else if !w.isLive then s.refuse c .notLive
  else
    (s.setWin c.slot (w.enterDrain .retire (some ⟨party, c.tag, none⟩) (s.use c.slot)),
      if s.use c.slot = 0 then some (c.reply .drained) else none)

/-- The operation of [RNW] (R91). -/
def rnwOperation (party : Party) (c : Command) (s : State) : State × Option Response :=
  let w := s.win c.slot
  if w.owner ≠ party then s.refuse c .owner
  else if w.isDraining then s.refuse c .leaseGone
  else if !w.isLive then s.refuse c .notLive
  else match c.newReload w.reload with
    | none => s.refuse c .badField
    | some reload =>
      (s.setWin c.slot { w with reload, remaining := reload, fresh := true }, some (c.replyWith .ok [reload.setWidth 32]))

/-- The operation of [MOD] (R93, R94). -/
def modOperation (party : Party) (c : Command) (s : State) : State × Option Response :=
  let w := s.win c.slot
  if w.owner ≠ party then s.refuse c .owner
  else if !(w.isStaged || w.isLive) then s.refuse c .notStagedOrLive
  else match c.selected with
    | none => (s, some (c.replyWith .badField [0#32]))
    | some selected =>
      let old := w.selectedWord selected
      let new := maskedWord old (c.word 1) (c.word 2)
      if selected.good new then (s.setWin c.slot (w.withSelectedWord selected new), some (c.replyWith .ok [old]))
      else (s, some (c.replyWith .badField [old]))

/-! ## Query, expiry set, default record, mode, ownership (R96 to R99, R165) -/

/-- The operation of [QRY] (R96). -/
def qryOperation (_party : Party) (c : Command) (s : State) : State × Option Response :=
  (s, some (c.replyWith .ok ((s.win c.slot).reportedWords (s.use c.slot))))

/-- The lowest-numbered expiry-set member whose slot the party owns (R20, R97). -/
def State.lowestExpired (s : State) (party : Party) : Option Slot :=
  allSlots.find? fun n => s.expired n && (s.win n).owner == party

/-- The operation of [REX] (R97). -/
def rexOperation (party : Party) (c : Command) (s : State) : State × Option Response :=
  match s.lowestExpired party with
  | none => s.refuse c .none
  | some n => (s.setExpired n false, some (c.replyWith .ok [0#26 ++ slotBits n]))

/-- The operation of [SDF] (R98). -/
def sdfOperation (_party : Party) (c : Command) (s : State) : State × Option Response :=
  if policyWordGood (c.word 0) then
    (s.setDefault (Policy.ofWord (c.word 0)), some (c.replyWith .ok [s.table.defaultRecord.word]))
  else s.refuse c .badField

/-- The operation of [TEN] (R99). -/
def tenOperation (_party : Party) (c : Command) (s : State) : State × Option Response :=
  (s.setMode .active, some (c.reply .ok))

/-- A walk in progress takes its end mark (R109). -/
def Walk.marked : Walk → Walk
  | .idle => .idle
  | .walking n _ => .walking n true

/-- The operation of [TDS]: the mode is BOOT and a walk in progress is marked to end (R99, R109). -/
def tdsOperation (_party : Party) (c : Command) (s : State) : State × Option Response :=
  ((s.setMode .boot).setWalk s.sweep.walk.marked, some (c.reply .ok))

/-- One ownership word: bit k is 1 when slot `first` + k is owned by HOST (R165, R183). -/
def State.ownerWord (s : State) (first : Nat) : Word :=
  BitVec.ofFnLE fun k : Fin 32 => (s.win (Fin.ofNat 64 (first + k.val))).owner == .host

/-- The operation of [OWN] (R165). -/
def ownOperation (_party : Party) (c : Command) (s : State) : State × Option Response :=
  (s, some (c.replyWith .ok [s.ownerWord 0, s.ownerWord 32]))

/-! ## The meanings -/

/-- STG (R80). -/
def execStg (party : Party) (s : State) : Host.Outcome State Fault Refusal :=
  .next (s.whilePowered (s.runGranted party .stg stgOperation))

/-- ABN (R83). -/
def execAbn (party : Party) (s : State) : Host.Outcome State Fault Refusal :=
  .next (s.whilePowered (s.runGranted party .abn abnOperation))

/-- CMT (R86). -/
def execCmt (party : Party) (s : State) : Host.Outcome State Fault Refusal :=
  .next (s.whilePowered (s.runGranted party .cmt cmtOperation))

/-- RTR (R88). -/
def execRtr (party : Party) (s : State) : Host.Outcome State Fault Refusal :=
  .next (s.whilePowered (s.runGranted party .rtr rtrOperation))

/-- RNW (R91). -/
def execRnw (party : Party) (s : State) : Host.Outcome State Fault Refusal :=
  .next (s.whilePowered (s.runGranted party .rnw rnwOperation))

/-- MOD (R93). -/
def execMod (party : Party) (s : State) : Host.Outcome State Fault Refusal :=
  .next (s.whilePowered (s.runGranted party .mod modOperation))

/-- QRY (R96). -/
def execQry (party : Party) (s : State) : Host.Outcome State Fault Refusal :=
  .next (s.whilePowered (s.runGranted party .qry qryOperation))

/-- REX (R97). -/
def execRex (party : Party) (s : State) : Host.Outcome State Fault Refusal :=
  .next (s.whilePowered (s.runGranted party .rex rexOperation))

/-- SDF (R98). -/
def execSdf (s : State) : Host.Outcome State Fault Refusal :=
  .next (s.whilePowered (s.runSupervisor .sdf sdfOperation))

/-- TEN (R99). -/
def execTen (s : State) : Host.Outcome State Fault Refusal :=
  .next (s.whilePowered (s.runSupervisor .ten tenOperation))

/-- TDS (R99). -/
def execTds (s : State) : Host.Outcome State Fault Refusal :=
  .next (s.whilePowered (s.runSupervisor .tds tdsOperation))

/-- OWN (R165). -/
def execOwn (s : State) : Host.Outcome State Fault Refusal :=
  .next (s.whilePowered (s.runGranted .host .own ownOperation))

end Sys2Proof.Machine
end

