-- ==== Sys2Proof/Machine/Dispatch.lean ====
section
/-! DEFINITION. One meaning per command of the table. -/

namespace Sys2Proof.Machine

def exec (i : Instr) (s : State) : Host.Outcome State Fault Refusal :=
  match i with
  | .powerOnReset straps => Sys2Proof.Machine.execPowerOnReset straps s
  | .lookupRequest request => Sys2Proof.Machine.execLookupRequest request s
  | .lookup => Sys2Proof.Machine.execLookup s
  | .verdictDeparture => Sys2Proof.Machine.execVerdictDeparture s
  | .completionNotice ticket requester => Sys2Proof.Machine.execCompletionNotice ticket requester s
  | .fabricReset => Sys2Proof.Machine.execFabricReset s
  | .frstRelease => Sys2Proof.Machine.execFrstRelease s
  | .sweepRequest => Sys2Proof.Machine.execSweepRequest s
  | .visit => Sys2Proof.Machine.execVisit s
  | .commandWord privilege word => Sys2Proof.Machine.execCommandWord privilege word s
  | .unknownCommand party => Sys2Proof.Machine.execUnknownCommand party s
  | .stg party => Sys2Proof.Machine.execStg party s
  | .abn party => Sys2Proof.Machine.execAbn party s
  | .cmt party => Sys2Proof.Machine.execCmt party s
  | .rtr party => Sys2Proof.Machine.execRtr party s
  | .rnw party => Sys2Proof.Machine.execRnw party s
  | .mod party => Sys2Proof.Machine.execMod party s
  | .qry party => Sys2Proof.Machine.execQry party s
  | .rex party => Sys2Proof.Machine.execRex party s
  | .sdf => Sys2Proof.Machine.execSdf s
  | .ten => Sys2Proof.Machine.execTen s
  | .tds => Sys2Proof.Machine.execTds s
  | .own => Sys2Proof.Machine.execOwn s
  | .spr => Sys2Proof.Machine.execSpr s
  | .srv => Sys2Proof.Machine.execSrv s
  | .rvs => Sys2Proof.Machine.execRvs s
  | .tcf => Sys2Proof.Machine.execTcf s
  | .tst => Sys2Proof.Machine.execTst s
  | .tsp => Sys2Proof.Machine.execTsp s
  | .grt => Sys2Proof.Machine.execGrt s
  | .rcl => Sys2Proof.Machine.execRcl s
  | .responseRead => Sys2Proof.Machine.execResponseRead s
  | .owedResponse party => Sys2Proof.Machine.execOwedResponse party s
  | .clearDrainForced word => Sys2Proof.Machine.execClearDrainForced word s
  | .clearProtocol word => Sys2Proof.Machine.execClearProtocol word s
  | .clearOwnership word => Sys2Proof.Machine.execClearOwnership word s
  | .eventEnableWrite word => Sys2Proof.Machine.execEventEnableWrite word s
  | .portReset => Sys2Proof.Machine.execPortReset s
  | .ignoredWrite register privilege word => Sys2Proof.Machine.execIgnoredWrite register privilege word s
  | .commandFrame frame => Sys2Proof.Machine.execCommandFrame frame s
  | .responseRegisterRead => Sys2Proof.Machine.execResponseRegisterRead s
  | .linkReset => Sys2Proof.Machine.execLinkReset s
  | .refclkTick => Sys2Proof.Machine.execRefclkTick s
  | .pornAssertion => Sys2Proof.Machine.execPornAssertion s

end Sys2Proof.Machine
end

