-- ==== Sys2Proof/Safety.lean ====
section
/-! DEFINITION. What a sound state of the part is, and the words in which the statements speak of a command's effect:
when a table command stands at its grant, what its answer changes, and what every command of a kind leaves alone. -/

namespace Sys2Proof.Machine

/-! ## Sound states -/

/-- What holds of a window record in each state: the template is clean (R4), remaining does not exceed reload (R8), a
FREE record is cleared (R12), owed responses stand only in a retire's drain without outcome or in a FREE slot with one
(R11), a leased LIVE window has a visit left (R111), and a DRAINING one is not fresh (R61). -/
def Window.Sound (w : Window) : Prop :=
  w.base &&& ~~~w.mask = 0#20 ∧ w.remaining ≤ w.reload ∧
  match w.state with
  | .free => w = Window.cleared w.owner w.owed ∧ ∀ o, w.owed = some o → o.outcome.isSome = true
  | .staged _ => w.owed = none ∧ w.fresh = false
  | .live => w.owed = none ∧ (w.reload ≠ 0#8 → w.remaining ≠ 0#8)
  | .draining cause _ => w.fresh = false ∧ ∀ o, w.owed = some o → cause = .retire ∧ o.outcome = none

/-- Every record is sound. -/
def State.RecordsSound (s : State) : Prop := ∀ n : Slot, (s.win n).Sound

/-- A ticket is COUNTED and names slot n. -/
def Ticket.names (n : Slot) : Ticket → Bool
  | .counted _ m => m == n
  | .orphan _ | .free => false

/-- How many COUNTED tickets name slot n (R54). -/
def State.countedTickets (s : State) (n : Slot) : Nat := allTickets.countP fun t => (s.ticket t).names n

/-- Every use count is the number of COUNTED tickets naming the slot (R54), FREE and STAGED slots have none (R54), and
a DRAINING window has at least one (R79). -/
def State.TicketsSound (s : State) : Prop :=
  ∀ n : Slot, s.use n = s.countedTickets n ∧
    (((s.win n).isFree = true ∨ (s.win n).isStaged = true) → s.use n = 0) ∧
    ((s.win n).isDraining = true → s.use n ≠ 0)

/-- Places of the Command Queue reserved by a command under assembly (R135). -/
def Assembler.reserved : Assembler → Nat
  | .collecting _ _ => 1
  | .idle | .discard _ => 0

/-- No queue holds more than its places (R32, R45, R139, R144, R121), the NORMAL entries fit beside the reserve (R32,
R173), an owed response waits only while its party has no room (R147, R161), no operation is under way (R121), and the
walk yields only while another claim is present (R126). -/
def State.QueuesSound (s : State) : Prop :=
  s.lookup.queue.length ≤ 16 ∧ s.lookup.reserve ≤ 8 ∧ s.normalQueued + s.lookup.reserve ≤ 16 ∧
  s.lookup.verdicts.length ≤ 8 ∧ s.host.responses.length ≤ 16 ∧
  s.host.commands.length + s.host.assembler.reserved ≤ 8 ∧ s.arbiter.hostWait ≤ 8 ∧ s.arbiter.holder = none ∧
  (∀ party, s.roomFor party = true → s.lowestWaiting party = none) ∧
  (s.sweep.yields = true → s.othersClaim = true)

/-- The requester/tag pairs of the Lookup Queue and the Verdict Buffer (R46). -/
def State.pairsHeld (s : State) : List (Requester × LookupTag) :=
  s.lookup.queue.map (fun e => (e.requester, e.tag)) ++ s.lookup.verdicts.map (fun v => (v.requester, v.tag))

/-- The in-flight set is the pairs of the queue and the buffer, and no pair is in flight twice (R29, R46). -/
def State.FlightSound (s : State) : Prop := s.lookup.inFlight.Perm s.pairsHeld ∧ s.lookup.inFlight.Nodup

/-- The timer's items are in range; while STOPPED both counts are 0, and while RUNNING the counter is below the period
and the prescale count below the prescale (R100, R101). -/
def State.TimerSound (s : State) : Prop :=
  1 ≤ s.timer.period ∧ s.timer.period ≤ 65535 ∧
  match s.timer.state with
  | .stopped => s.timer.counter = 0 ∧ s.timer.prescaleCount = 0
  | .running => s.timer.counter < s.timer.period ∧
      ∀ ticks, s.timer.prescale.ticks = some ticks → s.timer.prescaleCount < ticks

/-- A walk in BOOT mode carries its end mark (R109). -/
def State.WalkSound (s : State) : Prop :=
  s.table.mode = .boot → s.sweep.walk = s.sweep.walk.marked

/-- No STAGED window names itself, and no two STAGED windows name the same target (R82). -/
def State.TargetsSound (s : State) : Prop :=
  ∀ n m t : Slot, (s.win n).target = some t → t ≠ n ∧ ((s.win m).target = some t → m = n)

/-- A sound state. -/
def State.Sound (s : State) : Prop :=
  s.RecordsSound ∧ s.TicketsSound ∧ s.QueuesSound ∧ s.FlightSound ∧ s.TimerSound ∧ s.WalkSound ∧ s.TargetsSound

/-! ## What stays -/

/-- The default record, the boot record, the table mode and the expiry set stay. -/
def KeepsTableItems (s t : State) : Prop :=
  t.table.defaultRecord = s.table.defaultRecord ∧ t.table.bootRecord = s.table.bootRecord ∧
  t.table.mode = s.table.mode ∧ t.table.expiry = s.table.expiry

/-- Of the Window Table nothing but window n changes, which becomes w. -/
def OnlyWindow (n : Slot) (w : Window) (s t : State) : Prop :=
  (∀ m : Slot, t.win m = if m = n then w else s.win m) ∧ KeepsTableItems s t

/-! ## Ports and engines -/

/-- A queued host command is a table command that passes the number and the privilege check (R141). -/
def HostCommand.passes (c : HostCommand) : Bool :=
  match symOn .host c.command.number with
  | some sym => sym.needsGrant && !(sym.supervisorOnly && c.privilege == .user)
  | none => false

/-- What the Host Command Engine has in hand after an event (R140, R143): a command it had in hand stays; with none,
the head of the queued commands is in hand when it passes both checks, a response place is free and no host owed
response waits; otherwise nothing is in hand and the queue stays. -/
def EngineMovesOn (hand : Option HostCommand) (queued : List HostCommand) (t : State) : Prop :=
  match hand, queued with
  | some h, q => t.hostHand = some h ∧ t.host.commands = q
  | none, [] => t.hostHand = none ∧ t.host.commands = []
  | none, c :: rest =>
    if c.passes = true ∧ t.host.responses.length < 16 ∧ ∀ n : Slot, (t.win n).waitingResponse .host = none
    then t.hostHand = some c ∧ t.host.commands = rest
    else t.hostHand = none ∧ t.host.commands = c :: rest

/-- A response joins the tail of the Response Queue, or fills the response register. -/
def Placed (party : Party) (r : Response) (s t : State) : Prop :=
  match party with
  | .host => t.host = { s.host with responses := s.host.responses ++ [r] } ∧ t.maint = s.maint
  | .maint => t.maint = { s.maint with response := some r } ∧ t.host = s.host

/-- Slot n is the lowest whose owed response of a party waits, and r is that response (R147, R161). -/
def LowestWaits (s : State) (party : Party) (n : Slot) (r : Response) : Prop :=
  (s.win n).waitingResponse party = some r ∧ ∀ m : Slot, m < n → (s.win m).waitingResponse party = none

/-- A drain ends with an outcome (R22, R63): the slot is FREE and cleared, and an owed response enters its party's
queue or register when there is room, or else waits in the slot with the outcome. -/
def DrainEnds (n : Slot) (outcome : DrainOutcome) (s t : State) : Prop :=
  match (s.win n).owed with
  | none => OnlyWindow n (Window.cleared (s.win n).owner none) s t ∧ t.host = s.host ∧ t.maint = s.maint
  | some o =>
    if s.roomFor o.party = true then
      OnlyWindow n (Window.cleared (s.win n).owner none) s t ∧ Placed o.party ⟨o.tag, outcome.status, []⟩ s t
    else
      OnlyWindow n (Window.cleared (s.win n).owner (some ⟨o.party, o.tag, some outcome⟩)) s t ∧
        t.host = s.host ∧ t.maint = s.maint

/-- A PROTOCOL occurrence and nothing else (R150): the event is set, and an EMPTY status takes the kind. -/
def ProtocolRaised (kind : ProtocolKind) (s t : State) : Prop :=
  t = { s with host := { s.host with
          protocolEvent := true
          protocolStatus := match s.host.protocolStatus with
            | none => some kind
            | some first => some first } }

/-- What an event that may withdraw a claim does to the Sweep Engine (R106, R126, R129, log entry 12): the walk stays, and
a walk yield stands only while another claim is present. -/
def YieldSettled (s t : State) : Prop :=
  t.sweep.walk = s.sweep.walk ∧ (t.sweep.yields = true ↔ s.sweep.yields = true ∧ t.othersClaim = true)

/-! ## Table operations of the two parties -/

/-- A party's command c, which is `sym` on its path, stands at its grant: the party's engine holds it and the arbiter
grants the table to that engine (R73, R122). -/
def State.Granted (s : State) (party : Party) (sym : CommandSym) (c : Command) : Prop :=
  s.pornLow = false ∧ s.inHand party = some c ∧ symOn party c.number = some sym ∧
  s.grantee = some (engineOf party)

/-- What a party's table operation does outside the Window Table (R75, R123, R125, R143, R160): its response, if it
has one, is placed, the command in hand is gone, the host's engine moves on, the grant holder is NONE, a grant to the
host sets its wait count to 0, and every other block stays. -/
def TableOperation (party : Party) (response : Option Response) (s t : State) : Prop :=
  (match party with
    | .host => EngineMovesOn none s.host.commands t ∧ t.maint = s.maint ∧ t.arbiter = ⟨none, 0⟩ ∧
        t.host = { s.host with responses := s.host.responses ++ response.toList, commands := t.host.commands }
    | .maint => t.maint = { s.maint with command := none, response := response } ∧ t.host = s.host ∧
        t.hostHand = s.hostHand ∧ t.arbiter = ⟨none, s.arbiter.hostWait⟩) ∧
  t.sweep = { s.sweep with yields := false } ∧
  { t with table := s.table, arbiter := s.arbiter, sweep := s.sweep, host := s.host, hostHand := s.hostHand,
           maint := s.maint } = s

/-- A command refused at its grant with a status and no data word: the Window Table stays (R74). -/
def Refused (party : Party) (c : Command) (status : Status) (s t : State) : Prop :=
  TableOperation party (some ⟨c.tag, status, []⟩) s t ∧ t.table = s.table

/-! ## Commands answered at their taking -/

/-- The host's head command c, which is `sym` on its path, can be taken (R140). -/
def State.Taken (s : State) (sym : CommandSym) (c : HostCommand) : Prop :=
  s.pornLow = false ∧ s.host.commands.head? = some c ∧ s.mayTake = true ∧
  symOn .host c.command.number = some sym

/-- A command answered at its taking (R141, R142): it leaves the queue, its response joins the Response Queue, and the
engine moves on. -/
def AnsweredAtTaking (r : Response) (s t : State) : Prop :=
  EngineMovesOn none s.host.commands.tail t ∧
  t.host = { s.host with responses := s.host.responses ++ [r], commands := t.host.commands }

/-! ## Lookups -/

/-- Window n wins a lookup (R14): it is LIVE and matches, and every other LIVE matching window has a lower rank, or
the same rank and a higher slot. -/
def State.Wins (s : State) (page : Page) (r : Requester) (n : Slot) : Prop :=
  s.matchesAt page r n = true ∧
  ∀ m : Slot, s.matchesAt page r m = true → m = n ∨ (s.win m).rank < (s.win n).rank ∨
    ((s.win m).rank = (s.win n).rank ∧ n < m)

/-- The head entry e of the Lookup Queue stands at its grant (R35, R36). -/
def State.LookupGranted (s : State) (e : QueueEntry) : Prop :=
  s.pornLow = false ∧ s.lookup.queue.head? = some e ∧ s.grantee = some .lookup

/-- The access lies within one page (R38). -/
def QueueEntry.onOnePage (e : QueueEntry) : Prop :=
  (e.address + e.lengthCode.setWidth 32).extractLsb' 12 20 = (e.address.extractLsb' 12 20 : Page)

/-- What a granted lookup does outside the Ticket Pool and Violation Status (R34, R36, R123, R125): the head entry
leaves, its verdict is placed, the host wait count rises while the host claims, and every other block stays. -/
def LookupAnswers (e : QueueEntry) (answer : Answer) (s t : State) : Prop :=
  t.lookup = { s.lookup with
    queue := s.lookup.queue.tail, verdicts := s.lookup.verdicts ++ [⟨e.requester, e.tag, answer⟩] } ∧
  t.arbiter = ⟨none, if s.hostClaims = true then min 8 (s.arbiter.hostWait + 1) else s.arbiter.hostWait⟩ ∧
  t.sweep = { s.sweep with yields := false } ∧
  { t with lookup := s.lookup, arbiter := s.arbiter, sweep := s.sweep, pool := s.pool,
           violations := s.violations } = s

/-- A violation handed over acts on the record of the entry's requester and on no other record (R176). -/
def ViolationHanded (e : QueueEntry) (source : ViolationSource) (outcome : ViolationOutcome) (s t : State) : Prop :=
  ∀ r : Requester, t.violation r =
    if r = e.requester then
      match s.violation r with
      | none => some ⟨e.address, e.lengthCode, e.kind, source, outcome, false⟩
      | some held => some ⟨held.address, held.lengthCode, held.kind, held.source, held.outcome, true⟩
    else s.violation r

/-- Ticket k is the lowest-numbered free ticket (R55). -/
def State.LowestFree (s : State) (k : TicketNo) : Prop :=
  s.ticket k = .free ∧ ∀ j : TicketNo, j < k → s.ticket j ≠ .free

/-- Ticket k is allocated to requester r against slot n, whose use count rises by 1; the rest of the pool stays
(R42, R55). -/
def TicketGiven (k : TicketNo) (r : Requester) (n : Slot) (s t : State) : Prop :=
  (∀ j : TicketNo, t.ticket j = if j = k then .counted r n else s.ticket j) ∧
  (∀ m : Slot, t.use m = if m = n then s.use n + 1 else s.use m)

/-! ## Sweep requests and visits -/

/-- A sweep request is taken (R102, R107): grace absorbs it; else it starts a walk in ACTIVE mode when the engine is
IDLE, whose yield to the claims at its last release stands (R126, log entry 12), and is dropped otherwise. -/
def SweepRequestTaken (s t : State) : Prop :=
  if s.timer.grace = true then t = { s with timer := { s.timer with grace := false } }
  else if s.sweep.walk = .idle ∧ s.table.mode = .active then
    t = { s with sweep := { s.sweep with walk := .walking 0 false } }
  else t = s

/-- The visit to slot n stands at its grant (R108). -/
def State.VisitGranted (s : State) (n : Slot) (endMark : Bool) : Prop :=
  s.pornLow = false ∧ s.sweep.walk = .walking n endMark ∧ s.grantee = some .sweep

/-- What a granted visit does outside its slot, the tickets, the events and the ports (R108, R123, R125, R126): the
walk moves on, the grant holder is NONE, and the engine yields when another claim is present (log entry
12). -/
def VisitEnds (walk : Walk) (s t : State) : Prop :=
  t.sweep.walk = walk ∧ (t.sweep.yields = true ↔ t.othersClaim = true) ∧
  t.arbiter = ⟨none, s.arbiter.hostWait⟩ ∧
  { t with table := s.table, arbiter := s.arbiter, sweep := s.sweep, pool := s.pool, host := s.host,
           maint := s.maint } = s

/-- The walk after the visit to slot n of an unmarked walk (R108). -/
def WalkGoesOn (n : Slot) (walk : Walk) : Prop :=
  (n = 63 → walk = .idle) ∧ ∀ next : Slot, next.val = n.val + 1 → walk = .walking next false

/-- A window that leaves LIVE enters DRAINING with a cause, age 0, fresh cleared and an owed response or none; with a
use count of 0 it is FREE and cleared at once (R12, R61). -/
def Drained (cause : DrainCause) (owed : Option Owed) (useCount : Nat) (before after : Window) : Prop :=
  (useCount = 0 → after = Window.cleared before.owner none) ∧
  (useCount ≠ 0 → after = { before with state := .draining cause 0#4, fresh := false, owed })

/-! ## Layouts, field by field -/

/-- A policy word that the tests of R180 accept: no reserved mode, and 0 in positions 3, 7 and 31 to 19. -/
def PolicyAccepted (word : Word) : Prop :=
  word.getLsbD 9 = false ∧ word.getLsbD 3 = false ∧ word.getLsbD 7 = false ∧ word.extractLsb' 19 13 = 0#13

/-- A membership word that the tests of R180 accept: 0 in positions 31 to 19. -/
def MembershipAccepted (word : Word) : Prop := word.extractLsb' 19 13 = 0#13

/-- The policy fields that a policy word holds (R180). -/
def HoldsPolicy (word : Word) (p : Policy) : Prop :=
  p.user = ⟨word.getLsbD 0, word.getLsbD 1, word.getLsbD 2⟩ ∧
  p.supervisor = ⟨word.getLsbD 4, word.getLsbD 5, word.getLsbD 6⟩ ∧
  p.mode = (if word.getLsbD 8 = true then .watch else .enforce) ∧
  p.attrs.width.bits = word.extractLsb' 10 2 ∧ p.attrs.waitProfile = word.extractLsb' 12 4 ∧
  p.attrs.burst = word.getLsbD 16 ∧ p.attrs.byteOrder = (if word.getLsbD 17 = true then .big else .little) ∧
  p.attrs.cacheable = word.getLsbD 18

/-- The supersede target that a written base word and mask word supply (R180). -/
def SuppliesTarget (base mask : Word) (target : Option Slot) : Prop :=
  if mask.getLsbD 3 = true then
    ∃ n : Slot, target = some n ∧ BitVec.ofNat 6 n.val = mask.extractLsb' 0 2 ++ base.extractLsb' 0 4
  else target = none

/-- The fields of a written record that [STG] accepts before it looks at the template (R81, R180). -/
def StagedFieldsAccepted (base policy membership mask : Word) : Prop :=
  (mask.extractLsb' 4 8).toNat ≤ (base.extractLsb' 4 8).toNat ∧ PolicyAccepted policy ∧
  MembershipAccepted membership ∧ mask.getLsbD 2 = false ∧
  (mask.getLsbD 3 = false → base.extractLsb' 0 4 = 0#4 ∧ mask.extractLsb' 0 2 = 0#2)

/-- The base of a written record holds no 1 where its mask holds a 0 (R4, R81). -/
def TemplateAccepted (base mask : Word) : Prop :=
  ∀ i : Nat, 12 ≤ i → i < 32 → base.getLsbD i = true → mask.getLsbD i = true

/-- A supersede target that [STG] of slot n accepts: another slot, LIVE, the party's, and named by no STAGED window
(R82). -/
def TargetAccepted (s : State) (party : Party) (n t : Slot) : Prop :=
  t ≠ n ∧ (s.win t).state = .live ∧ (s.win t).owner = party ∧ ∀ m : Slot, (s.win m).target ≠ some t

/-- The window that a [STG] of a party writes from its four record words (R80, R180). -/
def StagedAs (party : Party) (base policy membership mask : Word) (w : Window) : Prop :=
  (∃ target, w.state = .staged target ∧ SuppliesTarget base mask target) ∧ w.owner = party ∧
  w.base = base.extractLsb' 12 20 ∧ w.mask = mask.extractLsb' 12 20 ∧
  w.rank = membership.extractLsb' 16 3 ∧ w.members = membership.extractLsb' 0 16 ∧ HoldsPolicy policy w.policy ∧
  w.reload = base.extractLsb' 4 8 ∧ w.remaining = mask.extractLsb' 4 8 ∧ w.fresh = false ∧ w.owed = none

/-- The four record words that [QRY] returns, in the reported form (R180, R181). -/
def ReportedIn (w : Window) (useCount : Nat) (base policy membership mask : Word) : Prop :=
  base.extractLsb' 12 20 = w.base ∧ base.extractLsb' 4 8 = w.reload ∧
  mask.extractLsb' 12 20 = w.mask ∧ mask.extractLsb' 4 8 = w.remaining ∧ mask.getLsbD 2 = false ∧
  (match w.target with
    | some n => mask.getLsbD 3 = true ∧ mask.extractLsb' 0 2 ++ base.extractLsb' 0 4 = BitVec.ofNat 6 n.val
    | none => mask.getLsbD 3 = false ∧ mask.extractLsb' 0 2 = 0#2 ∧ base.extractLsb' 0 4 = 0#4) ∧
  membership.extractLsb' 0 16 = w.members ∧ membership.extractLsb' 16 3 = w.rank ∧
  membership.getLsbD 19 = false ∧ membership.extractLsb' 20 2 = w.state.bits ∧
  membership.getLsbD 22 = (w.owner == .maint) ∧ membership.getLsbD 23 = w.fresh ∧
  membership.extractLsb' 24 6 = BitVec.ofNat 6 useCount ∧ membership.extractLsb' 30 2 = 0#2 ∧
  HoldsPolicy policy w.policy ∧ policy.getLsbD 9 = false ∧ policy.getLsbD 3 = false ∧ policy.getLsbD 7 = false ∧
  policy.extractLsb' 19 3 = 0#3 ∧
  (match w.state with
    | .draining cause age => policy.extractLsb' 28 2 = cause.bits ∧ policy.extractLsb' 24 4 = age
    | .free | .staged _ | .live => policy.extractLsb' 24 6 = 0#6) ∧
  (match w.owed with
    | some o => policy.getLsbD 30 = true ∧ policy.getLsbD 31 = (o.party == .maint) ∧
        policy.extractLsb' 22 2 = outcomeBits o.outcome
    | none => policy.extractLsb' 30 2 = 0#2 ∧ policy.extractLsb' 22 2 = 0#2)

/-- The record word that [RVS] returns for a HELD record (R183). -/
def ViolationIn (v : Violation) (word : Word) : Prop :=
  word.getLsbD 0 = true ∧ word.getLsbD 4 = (v.outcome == .watched) ∧ word.getLsbD 5 = v.overrun ∧
  word.extractLsb' 8 6 = v.lengthCode ∧ word.extractLsb' 16 2 = v.kind.bits ∧
  (match v.source with
    | .slot n => word.extractLsb' 20 2 = 1#2 ∧ word.extractLsb' 24 6 = BitVec.ofNat 6 n.val
    | .defaultRecord => word.extractLsb' 20 2 = 2#2 ∧ word.extractLsb' 24 6 = 0#6
    | .span => word.extractLsb' 20 2 = 3#2 ∧ word.extractLsb' 24 6 = 0#6) ∧
  word.extractLsb' 1 3 = 0#3 ∧ word.extractLsb' 6 2 = 0#2 ∧ word.extractLsb' 14 2 = 0#2 ∧
  word.extractLsb' 18 2 = 0#2 ∧ word.extractLsb' 22 2 = 0#2 ∧ word.extractLsb' 30 2 = 0#2

/-- A verdict's source on the wires (R185). -/
def SourceOn (source : Option Source) (src : BitVec 2) (slot : BitVec 6) : Prop :=
  match source with
  | none => src = 0#2 ∧ slot = 0#6
  | some (.slot n) => src = 1#2 ∧ slot = BitVec.ofNat 6 n.val
  | some .defaultRecord => src = 2#2 ∧ slot = 0#6
  | some .boot => src = 3#2 ∧ slot = 0#6

/-- A verdict's ticket on the wires (R185). -/
def TicketOn (ticket : Option TicketNo) (present : BitVec 1) (number : BitVec 5) : Prop :=
  match ticket with
  | none => present = 0#1 ∧ number = 0#5
  | some k => present = 1#1 ∧ number = BitVec.ofNat 5 k.val

/-- A verdict's attributes on the wires (R185). -/
def AttributesOn (attrs : Attributes) (wires : BitVec 9) : Prop :=
  wires.extractLsb' 0 2 = attrs.width.bits ∧ wires.extractLsb' 2 4 = attrs.waitProfile ∧
  wires.getLsbD 6 = attrs.burst ∧ wires.getLsbD 7 = (attrs.byteOrder == .big) ∧ wires.getLsbD 8 = attrs.cacheable

/-- The header word of a response (R183). -/
def HeaderOf (r : Response) (word : Word) : Prop :=
  word.extractLsb' 20 4 = BitVec.ofNat 4 r.tag.val ∧ word.extractLsb' 8 8 = r.status.code ∧
  word.extractLsb' 0 3 = BitVec.ofNat 3 (r.data.length + 1) ∧ word.extractLsb' 24 8 = 0#8 ∧
  word.extractLsb' 16 4 = 0#4 ∧ word.extractLsb' 3 5 = 0#5

end Sys2Proof.Machine
end

