-- ==== Sys2Proof/Certificates/Slice0/Obligations.lean ====
section
/-! DEFINITION. The statements for the provers, in the order of the spec's chapters. -/

open Sys2Proof Sys2Proof.Machine

/-! ## The step and the whole machine -/

/-- The front command leaves the queue and is carried out on the state with the queue's rest; on an empty queue the
block idles (the model's choice, log entry 1). -/
def Obligations.StepRunsFrontCommand : Prop :=
  (∀ (c : Instr) (rest : List Instr) (s : State), s.pending = c :: rest →
    step s = exec c { s with pending := rest }) ∧
  (∀ s : State, s.pending = [] → step s = .next s)

/-- Every invariant of the model holds of the reset state (R25, R52, R72, R120, R121, R154, R167, R173), whose strap
levels are log entry 2's. -/
def Obligations.ResetIsSound : Prop := State.reset.Sound

/-- Every step keeps the window records sound and the supersede targets distinct (R4, R8, R11, R12, R82, R111). -/
def Obligations.StepKeepsRecords : Prop :=
  ∀ s t : State, s.RecordsSound → s.TargetsSound → step s = .next t → t.RecordsSound ∧ t.TargetsSound

/-- Every step keeps each use count equal to the number of COUNTED tickets naming the slot, 0 for FREE and STAGED
slots and above 0 for DRAINING ones (R53, R54, R79). -/
def Obligations.StepKeepsUseCounts : Prop :=
  ∀ s t : State, s.TicketsSound → step s = .next t → t.TicketsSound

/-- Every step keeps every queue within its places, the NORMAL entries beside the reserve, no owed response waiting while
its party has room, and a walk yield only while another claim is present (R32, R45, R121, R126, R139, R144, R147, R161,
R173). That the yield is a flag is the model's reading of R126 (log entry 12). -/
def Obligations.StepKeepsQueues : Prop :=
  ∀ s t : State, s.QueuesSound → step s = .next t → t.QueuesSound

/-- Every step keeps the in-flight set the pairs of the Lookup Queue and the Verdict Buffer, none of them twice (R29,
R46). -/
def Obligations.StepKeepsInFlight : Prop :=
  ∀ s t : State, s.FlightSound → step s = .next t → t.FlightSound

/-- Every step keeps the timer's counts in range, and every walk in BOOT mode end-marked (R100, R101, R109). -/
def Obligations.StepKeepsTimerAndWalk : Prop :=
  ∀ s t : State, s.TimerSound → s.WalkSound → step s = .next t → t.TimerSound ∧ t.WalkSound

/-- A table command of one party changes no slot that the other party owns (R3). -/
def Obligations.TableCommandKeepsOtherPartysSlots : Prop :=
  (∀ (party : Party) (s t : State) (n : Slot), (s.win n).owner ≠ party →
    ∀ i ∈ [Instr.stg party, .abn party, .cmt party, .rtr party, .rnw party, .mod party, .qry party, .rex party],
      exec i s = .next t → t.win n = s.win n) ∧
  (∀ (s t : State) (n : Slot), ∀ i ∈ [Instr.sdf, .ten, .tds, .own], exec i s = .next t → t.win n = s.win n)

/-- No command changes the template of a window in place (R1): whatever is commanded, a window that is not FREE
before and not FREE after has the base and the mask it had. -/
def Obligations.TemplateStaysInPlace : Prop :=
  ∀ (i : Instr) (s t : State) (n : Slot), exec i s = .next t → (s.win n).isFree = false → (t.win n).isFree = false →
    (t.win n).base = (s.win n).base ∧ (t.win n).mask = (s.win n).mask

/-! ## Power-on reset -/

/-- What POWER_ON_RESET leaves in every block (R15, R17, R25, R52, R72, R120, R121, R154, R155, R167, R169, R173,
R175, R187). -/
def Obligations.PowerOnValues : Prop :=
  ∀ (straps : Straps) (s : State), ∃ t, exec (.powerOnReset straps) s = .next t ∧
    (∀ n : Slot, t.win n =
        Window.cleared (if straps.toolPresent = true ∧ 48 ≤ n.val then Party.maint else Party.host) none ∧
      t.expired n = false ∧ t.use n = 0) ∧
    t.table.mode = .boot ∧
    t.table.bootRecord.user = ⟨true, true, true⟩ ∧ t.table.bootRecord.supervisor = ⟨true, true, true⟩ ∧
    t.table.bootRecord.attrs.width.bits = straps.width ∧ t.table.bootRecord.attrs.waitProfile = 15#4 ∧
    t.table.bootRecord.attrs.byteOrder = (if straps.bigEndian = true then .big else .little) ∧
    t.table.bootRecord.attrs.burst = false ∧ t.table.bootRecord.attrs.cacheable = false ∧
    t.table.defaultRecord = ⟨Rights.empty, Rights.empty, .enforce, t.table.bootRecord.attrs⟩ ∧
    (∀ k : TicketNo, t.ticket k = .free) ∧ t.lookup = ⟨[], [], 2, []⟩ ∧ t.arbiter = ⟨none, 0⟩ ∧
    t.timer = ⟨.stopped, false, .off, 0, 65535, 0, 4#4⟩ ∧ t.sweep = ⟨.idle, false⟩ ∧
    (∀ r : Requester, t.profile r = ⟨true, .user, .normal⟩ ∧ t.violation r = none) ∧
    t.host.assembler = .idle ∧ t.host.commands = [] ∧ t.host.responses = [] ∧ t.host.wordsRead = 0 ∧
    t.host.drainForced = false ∧ t.host.protocolEvent = false ∧ t.host.ownership = false ∧ t.host.enables = 0#6 ∧
    t.host.protocolStatus = none ∧ t.hostHand = none ∧ t.maint.command = none ∧ t.maint.response = none ∧
    t.maint.busy = false ∧ t.maint.toolPresent = straps.toolPresent ∧ t.pornLow = false

/-- PORN_ASSERTION drives the part into power-on reset; while PORn is low the four outputs are low, host reads return
0, and host writes and link frames change nothing (R187). That PORN_ASSERTION changes nothing else before the rising
edge is the model's choice (log entry 4). -/
def Obligations.PornLowHoldsThePart : Prop :=
  (∀ s : State, ∃ t, exec .pornAssertion s = .next t ∧ t.pornLow = true ∧ { t with pornLow := s.pornLow } = s) ∧
  (∀ s : State, s.pornLow = true →
    s.requestReady = false ∧ s.completionReady = false ∧ s.verdictValid = false ∧ s.int = false ∧
    (∀ register, s.hostRead register = 0#32) ∧
    exec .responseRead s = .next { s with host := { s.host with readData := 0#32 } } ∧
    exec .portReset s = .next s ∧
    ∀ (privilege : Privilege) (register : HostRegister) (word : Word) (frame : Frame),
      ∀ i ∈ [Instr.commandWord privilege word, .clearDrainForced word, .clearProtocol word, .clearOwnership word,
        .eventEnableWrite word, .ignoredWrite register privilege word, .commandFrame frame],
      exec i s = .next s)

/-! ## The Check Port -/

/-- A closed channel leaves the part as it is: a request while FRST is asserted or the Verdict Buffer is full, a
notice while FRST is asserted, a departure while FRST is asserted or no verdict stands in the buffer (R28, R45, R56,
R68). -/
def Obligations.ClosedChannelsChangeNothing : Prop :=
  (∀ (s : State) (q : LookupRequest), s.frst = true ∨ 8 ≤ s.lookup.verdicts.length →
    exec (.lookupRequest q) s = .next s) ∧
  (∀ (s : State) (k : TicketNo) (r : Requester), s.frst = true → exec (.completionNotice k r) s = .next s) ∧
  (∀ s : State, s.frst = true ∨ s.lookup.verdicts = [] → exec .verdictDeparture s = .next s)

/-- An accepted request whose pair is in flight is discarded with TAG_REUSE, and one of the reserved kind with
BAD_KIND (R29, R30). -/
def Obligations.RequestDiscarded : Prop :=
  ∀ (s : State) (q : LookupRequest), s.pornLow = false → s.frst = false → s.lookup.verdicts.length < 8 →
    ((q.requester, q.tag) ∈ s.lookup.inFlight →
      ∃ t, exec (.lookupRequest q) s = .next t ∧ ProtocolRaised (.tagReuse q.requester) s t) ∧
    ((q.requester, q.tag) ∉ s.lookup.inFlight → q.kindCode = 3#2 →
      ∃ t, exec (.lookupRequest q) s = .next t ∧ ProtocolRaised (.badKind q.requester) s t)

/-- An accepted request that is not discarded joins the in-flight set; by its arrival class it joins the tail of the
Lookup Queue when the free places exceed the reserve (NORMAL) or 0 (URGENT), and is answered BACKOFF otherwise, which
may withdraw the Lookup Engine's claim (R27, R30 to R33, R35). The flag of the walk yield is the model's reading of
R126 (log entry 12). -/
def Obligations.RequestAdmitted : Prop :=
  ∀ (s : State) (q : LookupRequest) (kind : AccessKind), s.pornLow = false → s.frst = false →
    s.lookup.verdicts.length < 8 → (q.requester, q.tag) ∉ s.lookup.inFlight →
    q.kindCode = (match kind with | .read => 0#2 | .write => 1#2 | .fetch => 2#2) →
    ∃ t, exec (.lookupRequest q) s = .next t ∧
      t.lookup.inFlight = s.lookup.inFlight ++ [(q.requester, q.tag)] ∧ t.lookup.reserve = s.lookup.reserve ∧
      (if (match (s.profile q.requester).urgency with | .normal => s.lookup.reserve | .urgent => 0)
            < 16 - s.lookup.queue.length then
        t.lookup.queue = s.lookup.queue ++
            [⟨q.requester, q.tag, q.address, q.lengthCode, kind, (s.profile q.requester).urgency⟩] ∧
          t.lookup.verdicts = s.lookup.verdicts ∧ t.sweep = s.sweep
      else
        t.lookup.queue = s.lookup.queue ∧
          t.lookup.verdicts = s.lookup.verdicts ++ [⟨q.requester, q.tag, .backoff⟩] ∧ YieldSettled s t) ∧
      { t with lookup := s.lookup, sweep := s.sweep } = s

/-- Matching is R13's, and the winner is R14's: of the LIVE matching windows the highest rank, and of equal ranks the
lowest slot; there is none when no LIVE window matches. -/
def Obligations.WinnerIsHighestRankThenLowestSlot : Prop :=
  ∀ (s : State) (page : Page) (r : Requester),
    (∀ n : Slot, s.matchesAt page r n = true ↔
      (s.win n).state = .live ∧ page &&& (s.win n).mask = (s.win n).base ∧ (s.win n).members.getLsbD r.val = true) ∧
    (∀ n : Slot, s.winner page r = some n ↔ s.Wins page r n) ∧
    (s.winner page r = none ↔ ∀ n : Slot, s.matchesAt page r n = false)

/-- When each engine's claim is present, and when the host's engine may take a command (R35, R106, R127, R128, R140). That
the walk yield is a flag which withholds the sweep's claim while another claim is present is the model's reading of R126
(log entry 12). -/
def Obligations.ClaimsPresent : Prop :=
  ∀ s : State,
    (s.maintClaims = true ↔ s.maint.response = none ∧ ∃ c, s.maint.command = some c ∧ symOn .maint c.number ≠ none) ∧
    (s.lookupClaims = true ↔ s.lookup.queue ≠ [] ∧ s.lookup.verdicts.length < 8) ∧
    (s.hostClaims = true ↔ s.hostHand ≠ none ∧ s.host.responses.length < 16 ∧
      ∀ n : Slot, (s.win n).waitingResponse .host = none) ∧
    (s.sweepClaims = true ↔ s.sweep.walk ≠ .idle ∧
      ¬(s.sweep.yields = true ∧ (s.maintClaims = true ∨ s.lookupClaims = true ∨ s.hostClaims = true))) ∧
    (s.mayTake = true ↔ s.hostHand = none ∧ s.host.commands ≠ [] ∧ s.host.responses.length < 16 ∧
      ∀ n : Slot, (s.win n).waitingResponse .host = none)

/-- At a release point the arbiter grants the most preferred claim present: maintenance, sweep, lookup, host, with the
host ahead of the lookup at a wait count of 8 (R124). -/
def Obligations.ArbiterPreference : Prop :=
  ∀ s : State, s.arbiter.holder = none →
    (s.maintClaims = true → s.grantee = some .maint) ∧
    (s.maintClaims = false → s.sweepClaims = true → s.grantee = some .sweep) ∧
    (s.maintClaims = false → s.sweepClaims = false → s.lookupClaims = true → s.hostClaims = true →
      (s.arbiter.hostWait ≤ 7 → s.grantee = some .lookup) ∧ (s.arbiter.hostWait = 8 → s.grantee = some .host)) ∧
    (s.maintClaims = false → s.sweepClaims = false → s.hostClaims = false → s.lookupClaims = true →
      s.grantee = some .lookup) ∧
    (s.maintClaims = false → s.sweepClaims = false → s.lookupClaims = false → s.hostClaims = true →
      s.grantee = some .host) ∧
    (s.maintClaims = false → s.sweepClaims = false → s.lookupClaims = false → s.hostClaims = false →
      s.grantee = none)

/-- A granted lookup that no window decides: PROFILE for a disabled requester, SPAN with the source that covers the
first byte and a violation, and the boot record's PERMIT in BOOT mode (R37, R38, R39, R43, R176). -/
def Obligations.LookupSettledBeforeTheWindows : Prop :=
  ∀ (s : State) (e : QueueEntry), s.LookupGranted e →
    ((s.profile e.requester).enabled = false →
      ∃ t, exec .lookup s = .next t ∧ LookupAnswers e (.deny .profile none) s t ∧ t.pool = s.pool ∧
        t.violations = s.violations) ∧
    ((s.profile e.requester).enabled = true → ¬ e.onOnePage → ∀ source : Source,
      (s.table.mode = .boot → source = .boot) →
      (s.table.mode = .active → match source with
        | .slot n => s.Wins (pageOf e.address) e.requester n
        | .defaultRecord => ∀ n : Slot, s.matchesAt (pageOf e.address) e.requester n = false
        | .boot => False) →
      ∃ t, exec .lookup s = .next t ∧ LookupAnswers e (.deny .span (some source)) s t ∧ t.pool = s.pool ∧
        ViolationHanded e .span .denied s t) ∧
    ((s.profile e.requester).enabled = true → e.onOnePage → s.table.mode = .boot →
      ∃ t, exec .lookup s = .next t ∧ LookupAnswers e (.permit .boot none s.table.bootRecord.attrs) s t ∧
        t.pool = s.pool ∧ t.violations = s.violations)

/-- A granted lookup that window n wins in ACTIVE mode: within the rights PERMIT with the lowest free ticket; outside
them DENY with reason RIGHTS under ENFORCE and PERMIT_WATCHED with the lowest free ticket under WATCH, each with its
violation; and RETRY, which records nothing, where a ticket is needed and none is free (R40 to R43, R55, R176). -/
def Obligations.LookupUnderWindow : Prop :=
  ∀ (s : State) (e : QueueEntry) (n : Slot), s.LookupGranted e → (s.profile e.requester).enabled = true →
    e.onOnePage → s.table.mode = .active → s.Wins (pageOf e.address) e.requester n →
    ∃ t, exec .lookup s = .next t ∧
      (if (s.win n).policy.permits (s.profile e.requester).privilege e.kind = true then
        (∀ k, s.LowestFree k →
          LookupAnswers e (.permit (.slot n) (some k) (s.win n).policy.attrs) s t ∧ TicketGiven k e.requester n s t ∧
            t.violations = s.violations) ∧
        ((∀ k, s.ticket k ≠ .free) →
          LookupAnswers e .retry s t ∧ t.pool = s.pool ∧ t.violations = s.violations)
      else match (s.win n).policy.mode with
        | .enforce =>
          LookupAnswers e (.deny .rights (some (.slot n))) s t ∧ t.pool = s.pool ∧
            ViolationHanded e (.slot n) .denied s t
        | .watch =>
          (∀ k, s.LowestFree k →
            LookupAnswers e (.permitWatched (.slot n) (some k) (s.win n).policy.attrs) s t ∧
              TicketGiven k e.requester n s t ∧ ViolationHanded e (.slot n) .watched s t) ∧
          ((∀ k, s.ticket k ≠ .free) →
            LookupAnswers e .retry s t ∧ t.pool = s.pool ∧ t.violations = s.violations))

/-- A granted lookup that no LIVE window matches in ACTIVE mode is decided by the default record, without a ticket:
PERMIT within its rights; outside them DENY with reason MISS under ENFORCE and PERMIT_WATCHED under WATCH, each with
its violation (R16, R41, R43, R176). -/
def Obligations.LookupUnderDefaultRecord : Prop :=
  ∀ (s : State) (e : QueueEntry), s.LookupGranted e → (s.profile e.requester).enabled = true → e.onOnePage →
    s.table.mode = .active → (∀ n : Slot, s.matchesAt (pageOf e.address) e.requester n = false) →
    ∃ t, exec .lookup s = .next t ∧ t.pool = s.pool ∧
      (if s.table.defaultRecord.permits (s.profile e.requester).privilege e.kind = true then
        LookupAnswers e (.permit .defaultRecord none s.table.defaultRecord.attrs) s t ∧ t.violations = s.violations
      else match s.table.defaultRecord.mode with
        | .enforce =>
          LookupAnswers e (.deny .miss (some .defaultRecord)) s t ∧ ViolationHanded e .defaultRecord .denied s t
        | .watch =>
          LookupAnswers e (.permitWatched .defaultRecord none s.table.defaultRecord.attrs) s t ∧
            ViolationHanded e .defaultRecord .watched s t)

/-- The oldest verdict is the one presented, and its departure removes it and its pair (R45, R46). -/
def Obligations.VerdictDeparts : Prop :=
  ∀ (s : State) (v : Verdict) (rest : List Verdict), s.pornLow = false → s.frst = false →
    s.lookup.verdicts = v :: rest → s.FlightSound →
    s.presentedVerdict = some v.bundle ∧
    ∃ t, exec .verdictDeparture s = .next t ∧ t.lookup.verdicts = rest ∧ t.lookup.queue = s.lookup.queue ∧
      t.lookup.reserve = s.lookup.reserve ∧
      (∀ pair, pair ∈ t.lookup.inFlight ↔ pair ∈ s.lookup.inFlight ∧ pair ≠ (v.requester, v.tag)) ∧
      { t with lookup := s.lookup } = s

/-- An accepted completion notice frees its ticket: an ORPHAN's does nothing else; a COUNTED ticket's lowers the use
count of its slot by 1, and ends the drain of a DRAINING slot whose count reaches 0, whose owed response may withdraw
a claim (R58, R22, R63, R66, R127). The flag of the walk yield is the model's reading of R126 (log entry 12). -/
def Obligations.CompletionAccepted : Prop :=
  ∀ (s : State) (k : TicketNo) (r : Requester), s.pornLow = false → s.frst = false → s.QueuesSound →
    (s.ticket k = .orphan r →
      ∃ t, exec (.completionNotice k r) s = .next t ∧
        (∀ j : TicketNo, t.ticket j = if j = k then .free else s.ticket j) ∧ (∀ m : Slot, t.use m = s.use m) ∧
        { t with pool := s.pool } = s) ∧
    (∀ n : Slot, s.ticket k = .counted r n → 1 ≤ s.use n →
      ∃ t, exec (.completionNotice k r) s = .next t ∧
        (∀ j : TicketNo, t.ticket j = if j = k then .free else s.ticket j) ∧
        (∀ m : Slot, t.use m = if m = n then s.use n - 1 else s.use m) ∧
        (if (s.win n).isDraining = true ∧ s.use n = 1 then
          DrainEnds n .drained s t ∧ YieldSettled s t ∧
            { t with pool := s.pool, table := s.table, host := s.host, maint := s.maint, sweep := s.sweep } = s
        else { t with pool := s.pool } = s))

/-- A completion notice for a free ticket is refused with UNKNOWN_TICKET, and one of another requester than the
ticket's with WRONG_REQUESTER; nothing else changes (R57, R66). -/
def Obligations.CompletionRefused : Prop :=
  ∀ (s : State) (k : TicketNo) (r : Requester), s.pornLow = false → s.frst = false →
    (s.ticket k = .free →
      ∃ t, exec (.completionNotice k r) s = .next t ∧ ProtocolRaised (.unknownTicket r) s t) ∧
    ((∃ holder, holder ≠ r ∧ (s.ticket k = .orphan holder ∨ ∃ n, s.ticket k = .counted holder n)) →
      ∃ t, exec (.completionNotice k r) s = .next t ∧ ProtocolRaised (.wrongRequester r) s t)

/-- The rising edge of FRST empties the Lookup Engine and the Ticket Pool and frees every DRAINING window; the owed
responses of those slots enter in ascending slot order while their party has room, and the rest wait with outcome
FABRIC_RESET; every other window and block stays, but a walk yield with no other claim left. While FRST stays asserted
a further assertion does nothing, and the release ends the assertion alone (R50, R51, R68, R69, R71, R129, R148,
R161). That both edges act while PORn is low too is the model's choice (log entry 4). The flag of the walk yield is
the model's reading of R126 (log entry 12). -/
def Obligations.FabricResetAndRelease : Prop :=
  (∀ s : State, s.frst = false → s.QueuesSound →
    ∃ t, exec .fabricReset s = .next t ∧ t.frst = true ∧
      t.lookup = ⟨[], [], s.lookup.reserve, []⟩ ∧ (∀ k : TicketNo, t.ticket k = .free) ∧ (∀ m : Slot, t.use m = 0) ∧
      (let owing : Party → List Slot := fun party => allSlots.filter fun m =>
          (s.win m).isDraining && (s.win m).owed.any fun o => o.party == party
       let entering : Party → List Slot := fun party => match party with
          | .host => (owing .host).take (16 - s.host.responses.length)
          | .maint => (owing .maint).take (if s.maint.response = none then 1 else 0)
       let answer : Slot → Option Response := fun m => (s.win m).owed.map fun o => (⟨o.tag, .fabricReset, []⟩ : Response)
       (∀ m : Slot, t.win m =
          if (s.win m).isDraining = true then
            Window.cleared (s.win m).owner
              (if m ∈ entering .host ∨ m ∈ entering .maint then none
               else (s.win m).owed.map fun o => ⟨o.party, o.tag, some .fabricReset⟩)
          else s.win m) ∧
       t.host = { s.host with responses := s.host.responses ++ (entering .host).filterMap answer } ∧
       t.maint = { s.maint with
          response := ((entering .maint).filterMap answer).head?.or s.maint.response }) ∧
      KeepsTableItems s t ∧ YieldSettled s t ∧
      { t with frst := s.frst, lookup := s.lookup, pool := s.pool, table := s.table, host := s.host,
               maint := s.maint, sweep := s.sweep } = s) ∧
  (∀ s : State, s.frst = true → exec .fabricReset s = .next s) ∧
  (∀ s : State, exec .frstRelease s = .next { s with frst := false })

/-! ## The Lease Timer and the Sweep Engine -/

/-- A REFCLK tick: not taken while STOPPED or with prescale OFF; else it raises the prescale count, which at the
prescale returns to 0 and gives a count, which at the period returns the counter to 0 and gives a sweep request (R101,
R102, R107). The flag of the walk yield is the model's reading of R126 (log entry 12). -/
def Obligations.RefclkTickCounts : Prop :=
  ∀ s : State, s.pornLow = false →
    (s.timer.state = .stopped ∨ s.timer.prescale = .off → exec .refclkTick s = .next s) ∧
    (∀ prescale : Nat, s.timer.state = .running → s.timer.prescale.ticks = some prescale →
      (s.timer.prescaleCount + 1 < prescale →
        exec .refclkTick s = .next { s with timer := { s.timer with prescaleCount := s.timer.prescaleCount + 1 } }) ∧
      (s.timer.prescaleCount + 1 = prescale → s.timer.counter + 1 < s.timer.period →
        exec .refclkTick s =
          .next { s with timer := { s.timer with prescaleCount := 0, counter := s.timer.counter + 1 } }) ∧
      (s.timer.prescaleCount + 1 = prescale → s.timer.counter + 1 = s.timer.period →
        ∃ t, exec .refclkTick s = .next t ∧
          SweepRequestTaken { s with timer := { s.timer with prescaleCount := 0, counter := 0 } } t))

/-- SWEEP_REQUEST returns the counter to 0 and produces one sweep request; it is what the remaining ticks of the
present period do together (R101, R102, R107). That the row stands for those ticks is the model's choice (log entry
9). The flag of the walk yield is the model's reading of R126 (log entry 12). -/
def Obligations.SweepRequestIsTheRestOfThePeriod : Prop :=
  ∀ s : State, s.pornLow = false →
    (s.timer.state = .stopped ∨ s.timer.prescale = .off → exec .sweepRequest s = .next s) ∧
    (∀ prescale : Nat, s.timer.state = .running → s.timer.prescale.ticks = some prescale →
      (∃ t, exec .sweepRequest s = .next t ∧
        SweepRequestTaken { s with timer := { s.timer with prescaleCount := 0, counter := 0 } } t) ∧
      (s.TimerSound →
        exec .sweepRequest s = .next (State.tick^[prescale * s.timer.period
          - (prescale * s.timer.counter + s.timer.prescaleCount)] s)))

/-- A visit to a LIVE leased window clears fresh, or else takes one from remaining; from 1 to 0 the window expires:
DRAINING with cause EXPIRY, or FREE with a use count of 0, and a member of the expiry set. The walk goes on to the
next slot, and nothing else changes (R108, R111, R112, R20). The flag of the walk yield is the model's reading of R126
(log entry 12). -/
def Obligations.VisitAgesLease : Prop :=
  ∀ (s : State) (n : Slot) (walk : Walk), s.VisitGranted n false → WalkGoesOn n walk →
    (s.win n).state = .live → (s.win n).reload ≠ 0#8 →
    ∃ t, exec .visit s = .next t ∧ VisitEnds walk s t ∧ t.pool = s.pool ∧ t.host = s.host ∧ t.maint = s.maint ∧
      ((s.win n).fresh = true → OnlyWindow n { s.win n with fresh := false } s t) ∧
      ((s.win n).fresh = false → 1#8 < (s.win n).remaining →
        OnlyWindow n { s.win n with remaining := (s.win n).remaining - 1#8 } s t) ∧
      ((s.win n).fresh = false → (s.win n).remaining = 1#8 →
        Drained .expiry none (s.use n) { s.win n with remaining := 0#8 } (t.win n) ∧
        (∀ m : Slot, m ≠ n → t.win m = s.win m) ∧
        (∀ m : Slot, t.expired m = if m = n then true else s.expired m) ∧
        t.table.defaultRecord = s.table.defaultRecord ∧ t.table.bootRecord = s.table.bootRecord ∧
        t.table.mode = s.table.mode)

/-- A visit to a DRAINING window adds 1 to its age, up to 15; at a non-zero drain limit reached, the counted tickets
of the slot become orphans, its use count becomes 0, the drain ends with outcome FORCED and DRAIN_FORCED is raised
(R64, R65, R113). The flag of the walk yield is the model's reading of R126 (log entry 12). -/
def Obligations.VisitAgesDrain : Prop :=
  ∀ (s : State) (n : Slot) (walk : Walk) (cause : DrainCause) (age : BitVec 4), s.VisitGranted n false →
    WalkGoesOn n walk → s.QueuesSound → (s.win n).state = .draining cause age →
    ∃ t, exec .visit s = .next t ∧ VisitEnds walk s t ∧
      (if s.timer.drainLimit ≠ 0#4 ∧ s.timer.drainLimit.toNat ≤ min 15 (age.toNat + 1) then
        (∀ k : TicketNo, t.ticket k = match s.ticket k with
          | .counted r m => if m = n then .orphan r else .counted r m
          | .orphan r => .orphan r
          | .free => .free) ∧
        (∀ m : Slot, t.use m = if m = n then 0 else s.use m) ∧
        DrainEnds n .forced { s with host := { s.host with drainForced := true } } t
      else
        OnlyWindow n { s.win n with state := .draining cause (BitVec.ofNat 4 (min 15 (age.toNat + 1))) } s t ∧
          t.pool = s.pool ∧ t.host = s.host ∧ t.maint = s.maint)

/-- A visit passes over a FREE slot, a STAGED window and an unleased LIVE window; the visit of an end-marked walk
touches no slot and ends the walk (R108, R109, R111). The flag of the walk yield is the model's reading of R126 (log
entry 12). -/
def Obligations.VisitPassesOver : Prop :=
  (∀ (s : State) (n : Slot) (walk : Walk), s.VisitGranted n false → WalkGoesOn n walk →
    (s.win n).isFree = true ∨ (s.win n).isStaged = true ∨ ((s.win n).state = .live ∧ (s.win n).reload = 0#8) →
    ∃ t, exec .visit s = .next t ∧ VisitEnds walk s t ∧ t.table = s.table ∧ t.pool = s.pool ∧ t.host = s.host ∧
      t.maint = s.maint) ∧
  (∀ (s : State) (n : Slot), s.VisitGranted n true →
    ∃ t, exec .visit s = .next t ∧ VisitEnds .idle s t ∧ t.table = s.table ∧ t.pool = s.pool ∧ t.host = s.host ∧
      t.maint = s.maint)

/-- Measured in visits a lease is exact: a window as a commit or a renew leaves it, with reload R not 0, is LIVE after
R visits to its slot and expired after the (R+1)-th (R114). -/
def Obligations.LeaseLastsReloadPlusOneVisits : Prop :=
  ∀ (s : State) (n : Slot), (s.win n).state = .live → (s.win n).reload ≠ 0#8 →
    (s.win n).remaining = (s.win n).reload → (s.win n).fresh = true →
    (∀ visits : Nat, visits ≤ (s.win n).reload.toNat →
      (((fun u : State => u.visitSlot n)^[visits] s).win n).state = .live) ∧
    ((((fun u : State => u.visitSlot n)^[(s.win n).reload.toNat + 1] s).win n).isLive = false ∧
      ((fun u : State => u.visitSlot n)^[(s.win n).reload.toNat + 1] s).expired n = true)

/-! ## Host commands: assembly and taking -/

/-- A header written to an IDLE assembler: with no free place it is refused with COMMAND_OVERFLOW and its further
words are discarded; a one-word command enters the Command Queue at once; a longer one reserves its place (R135, R136,
R137, R138). -/
def Obligations.CommandHeaderTaken : Prop :=
  ∀ (s : State) (privilege : Privilege) (word : Word) (words : Nat), s.pornLow = false → s.host.assembler = .idle →
    words = wordsOn .host (word.extractLsb' 24 8) →
    ∃ t, exec (.commandWord privilege word) s = .next t ∧
      (if 8 ≤ s.host.commands.length then
        ProtocolRaised .commandOverflow
          { s with host := { s.host with assembler := (if words = 1 then .idle else .discard (words - 1)) } } t
      else if words = 1 then
        EngineMovesOn s.hostHand (s.host.commands ++ [⟨Command.ofHeader word, privilege⟩]) t ∧
          t.host = { s.host with commands := t.host.commands } ∧
          { t with host := s.host, hostHand := s.hostHand } = s
      else
        t = { s with host := { s.host with assembler := .collecting (Command.ofHeader word) (words - 1) } })

/-- A word written to a COLLECTING assembler is the command's next data word, and the last one completes the command,
which joins the queue with the privilege of that write; a word written in DISCARD is dropped (R136, R137). -/
def Obligations.CommandDataTaken : Prop :=
  ∀ (s : State) (privilege : Privilege) (word : Word), s.pornLow = false →
    (∀ (c : Command) (remaining : Nat), s.host.assembler = .collecting c remaining → 1 ≤ remaining →
      ∃ t, exec (.commandWord privilege word) s = .next t ∧
        (if remaining = 1 then
          EngineMovesOn s.hostHand (s.host.commands ++ [⟨{ c with data := c.data ++ [word] }, privilege⟩]) t ∧
            t.host = { s.host with assembler := .idle, commands := t.host.commands } ∧
            { t with host := s.host, hostHand := s.hostHand } = s
        else
          t = { s with host := { s.host with
            assembler := .collecting { c with data := c.data ++ [word] } (remaining - 1) } })) ∧
    (∀ remaining : Nat, s.host.assembler = .discard remaining → 1 ≤ remaining →
      exec (.commandWord privilege word) s = .next { s with host := { s.host with
        assembler := if remaining = 1 then .idle else .discard (remaining - 1) } })

/-- A taken command is answered without any other effect, UNKNOWN_COMMAND when its number names no command of its path,
and PRIVILEGE, without a grant, when a supervisor command was written at user privilege (R74, R138, R141, R159). That such a
taking is a row of its own is the model's choice (log entry 8). -/
def Obligations.RefusedAtTaking : Prop :=
  (∀ (s : State) (c : HostCommand), s.pornLow = false → s.host.commands.head? = some c → s.mayTake = true →
    symOn .host c.command.number = none →
    ∃ t, exec (.unknownCommand .host) s = .next t ∧
      AnsweredAtTaking ⟨c.command.tag, .unknownCommand, []⟩ s t ∧
      { t with host := s.host, hostHand := s.hostHand } = s) ∧
  (∀ (s : State) (c : Command), s.pornLow = false → s.maint.command = some c → s.maint.response = none →
    symOn .maint c.number = none →
    exec (.unknownCommand .maint) s = .next { s with maint := { s.maint with
      command := none, response := some ⟨c.tag, .unknownCommand, []⟩ } }) ∧
  (∀ (s : State) (c : HostCommand), ∀ row ∈ [(Instr.sdf, CommandSym.sdf), (.ten, .ten), (.tds, .tds), (.spr, .spr),
      (.srv, .srv), (.rvs, .rvs), (.tcf, .tcf), (.tst, .tst), (.tsp, .tsp)],
    s.Taken row.2 c → c.privilege = .user →
    ∃ t, exec row.1 s = .next t ∧ AnsweredAtTaking ⟨c.command.tag, .privilege, []⟩ s t ∧
      { t with host := s.host, hostHand := s.hostHand } = s)

/-- [SPR] (R170): at user privilege it is refused with PRIVILEGE and the profile is unchanged; at supervisor privilege
all three fields of the named profile are replaced at the taking, the other fifteen profiles are untouched, and the
response is OK with no data word. -/
def Obligations.SetProfile : Prop :=
  ∀ (s : State) (c : HostCommand), s.Taken .spr c →
    ∃ t, exec .spr s = .next t ∧
      (c.privilege = .user → t.profiles = s.profiles ∧ t.host = { s.host with
        responses := s.host.responses ++ [⟨c.command.tag, .privilege, []⟩], commands := t.host.commands }) ∧
      (c.privilege = .supervisor → t.host = { s.host with
          responses := s.host.responses ++ [⟨c.command.tag, .ok, []⟩], commands := t.host.commands } ∧
        ∀ r : Requester, t.profile r =
          if r.val = (c.command.operand.extractLsb' 0 4).toNat then
            { enabled := c.command.operand.getLsbD 8
              privilege := if c.command.operand.getLsbD 9 = true then .supervisor else .user
              urgency := if c.command.operand.getLsbD 10 = true then .urgent else .normal }
          else s.profile r) ∧
      { t with host := s.host, hostHand := s.hostHand, profiles := s.profiles } = s

/-- [SRV] at supervisor privilege: BAD_FIELD above 8, RESERVE_CONFLICT when the NORMAL entries queued exceed 16 minus
the new reserve, else the reserve is written and the answer is OK (R173). -/
def Obligations.SetReserve : Prop :=
  ∀ (s : State) (c : HostCommand), s.Taken .srv c → c.privilege = .supervisor →
    ∃ t, exec .srv s = .next t ∧
      (if 8 < (c.command.operand.extractLsb' 0 4).toNat then
        AnsweredAtTaking ⟨c.command.tag, .badField, []⟩ s t ∧ t.lookup = s.lookup
      else if 16 - (c.command.operand.extractLsb' 0 4).toNat <
          s.lookup.queue.countP (fun e => e.arrivalClass == .normal) then
        AnsweredAtTaking ⟨c.command.tag, .reserveConflict, []⟩ s t ∧ t.lookup = s.lookup
      else
        AnsweredAtTaking ⟨c.command.tag, .ok, []⟩ s t ∧
          t.lookup = { s.lookup with reserve := (c.command.operand.extractLsb' 0 4).toNat }) ∧
      { t with host := s.host, hostHand := s.hostHand, lookup := s.lookup } = s

/-- [RVS] at supervisor privilege returns the named record and makes it EMPTY; an EMPTY record is two zero words, and
the other records stay (R177, R183). -/
def Obligations.ReadViolation : Prop :=
  ∀ (s : State) (c : HostCommand) (r : Requester), s.Taken .rvs c → c.privilege = .supervisor →
    r.val = (c.command.operand.extractLsb' 0 4).toNat →
    ∃ t recordWord addressWord, exec .rvs s = .next t ∧
      AnsweredAtTaking ⟨c.command.tag, .ok, [recordWord, addressWord]⟩ s t ∧
      (match s.violation r with
        | some v => ViolationIn v recordWord ∧ addressWord = v.address
        | none => recordWord = 0#32 ∧ addressWord = 0#32) ∧
      (∀ q : Requester, t.violation q = if q = r then none else s.violation q) ∧
      { t with host := s.host, hostHand := s.hostHand, violations := s.violations } = s

/-- At supervisor privilege, [TCF]: BUSY while RUNNING, BAD_FIELD for period 0 or a reserved prescale code, else prescale,
period and drain limit are written and the answer is OK (R103, R182). [TST] and [TSP], always answered OK: [TST] starts
a STOPPED timer from 0 with grace set and leaves a RUNNING one alone; [TSP] stops the timer, clears grace and sets both
counts to 0 (R104, R105). -/
def Obligations.TimerCommands : Prop :=
  (∀ (s : State) (c : HostCommand), s.Taken .tcf c → c.privilege = .supervisor →
     ∃ t, exec .tcf s = .next t ∧
       (if s.timer.state = .running then
         AnsweredAtTaking ⟨c.command.tag, .busy, []⟩ s t ∧ t.timer = s.timer
       else if ((c.command.data.getD 0 0#32).extractLsb' 0 16).toNat = 0 ∨
           4 < (c.command.operand.extractLsb' 0 3).toNat then
         AnsweredAtTaking ⟨c.command.tag, .badField, []⟩ s t ∧ t.timer = s.timer
       else
         AnsweredAtTaking ⟨c.command.tag, .ok, []⟩ s t ∧
         t.timer = { s.timer with
           prescale := match (c.command.operand.extractLsb' 0 3).toNat with
             | 0 => .off | 1 => .by1 | 2 => .by16 | 3 => .by256 | _ => .by4096
           period := ((c.command.data.getD 0 0#32).extractLsb' 0 16).toNat
           drainLimit := c.command.operand.extractLsb' 8 4 }) ∧
       { t with host := s.host, hostHand := s.hostHand, timer := s.timer } = s) ∧
  (∀ (s : State) (c : HostCommand), c.privilege = .supervisor →
     (s.Taken .tst c → ∃ t, exec .tst s = .next t ∧ AnsweredAtTaking ⟨c.command.tag, .ok, []⟩ s t ∧
       t.timer = (match s.timer.state with
         | .stopped => { s.timer with state := .running, grace := true, prescaleCount := 0, counter := 0 }
         | .running => s.timer) ∧
       { t with host := s.host, hostHand := s.hostHand, timer := s.timer } = s) ∧
     (s.Taken .tsp c → ∃ t, exec .tsp s = .next t ∧ AnsweredAtTaking ⟨c.command.tag, .ok, []⟩ s t ∧
       t.timer = { s.timer with state := .stopped, grace := false, prescaleCount := 0, counter := 0 } ∧
       { t with host := s.host, hostHand := s.hostHand, timer := s.timer } = s))

/-! ## Responses, owed responses and events -/

/-- A read of RESPONSE returns the empty header when the queue is empty, and else the next word of the head response;
with its last word the response leaves, the lowest waiting owed response takes the place, or the engine may take a
command (R145, R147, R140, R183). That the word stands in the state is the model's choice (log entry 5). -/
def Obligations.ResponseWordRead : Prop :=
  ∀ s : State, s.pornLow = false →
    (s.host.responses = [] →
      exec .responseRead s = .next { s with host := { s.host with readData := 0x00000401#32 } }) ∧
    (∀ (r : Response) (rest : List Response), s.host.responses = r :: rest → s.QueuesSound →
      ∃ t, exec .responseRead s = .next t ∧
        (s.host.wordsRead = 0 → HeaderOf r t.host.readData) ∧
        (∀ k, s.host.wordsRead = k + 1 → t.host.readData = r.data.getD k 0#32) ∧
        (if s.host.wordsRead < r.data.length then
          t = { s with host := { s.host with
            wordsRead := s.host.wordsRead + 1, readData := t.host.readData } }
        else
          EngineMovesOn s.hostHand s.host.commands t ∧
          ((∀ n : Slot, (s.win n).waitingResponse .host = none) →
            t.host = { s.host with
              responses := rest, wordsRead := 0, readData := t.host.readData, commands := t.host.commands } ∧
            t.table = s.table) ∧
          (∀ n q, LowestWaits s .host n q →
            t.host = { s.host with
              responses := rest ++ [q], wordsRead := 0, readData := t.host.readData, commands := t.host.commands } ∧
            OnlyWindow n { s.win n with owed := none } s t) ∧
          { t with host := s.host, hostHand := s.hostHand, table := s.table } = s))

/-- OWED_RESPONSE: with room, the lowest waiting owed response of the party enters its queue or register and its slot
is no longer held; with no room or none waiting, nothing enters; and the host's engine may take a command (R63, R140,
R147, R161). That the entry is a row of its own is the model's choice (log entry 11). -/
def Obligations.OwedResponseEnters : Prop :=
  ∀ (s : State) (party : Party), s.pornLow = false →
    ∃ t, exec (.owedResponse party) s = .next t ∧
      (match party with
        | .host => EngineMovesOn s.hostHand s.host.commands t
        | .maint => t.hostHand = s.hostHand) ∧
      (∀ n r, LowestWaits s party n r → s.roomFor party = true →
        OnlyWindow n { s.win n with owed := none } s t ∧
        Placed party r { s with host := { s.host with commands := t.host.commands } } t) ∧
      (s.roomFor party = false ∨ (∀ n : Slot, (s.win n).waitingResponse party = none) →
        t.table = s.table ∧ t.host = { s.host with commands := t.host.commands } ∧ t.maint = s.maint) ∧
      { t with host := s.host, hostHand := s.hostHand, table := s.table, maint := s.maint } = s

/-- A supervisor write to EVENT PENDING clears each sticky kind written with 1 and keeps the others; with PROTOCOL the
protocol status becomes EMPTY (R150, R184). -/
def Obligations.StickyEventsCleared : Prop :=
  ∀ (s : State) (word : Word), s.pornLow = false →
    ∀ i ∈ [Instr.clearDrainForced word, .clearProtocol word, .clearOwnership word],
      exec i s = .next { s with host := { s.host with
        drainForced := if word.getLsbD 3 = true then false else s.host.drainForced
        protocolEvent := if word.getLsbD 4 = true then false else s.host.protocolEvent
        protocolStatus := if word.getLsbD 4 = true then none else s.host.protocolStatus
        ownership := if word.getLsbD 5 = true then false else s.host.ownership } }

/-- A supervisor write to EVENT ENABLE replaces the enable set and nothing else; INT is asserted exactly while a kind
is pending and enabled (R149, R151). -/
def Obligations.EventEnableDrivesInt : Prop :=
  ∀ (s : State) (word : Word), s.pornLow = false →
    exec (.eventEnableWrite word) s = .next { s with host := { s.host with enables := word.extractLsb' 0 6 } } ∧
    (s.int = true ↔
      (s.host.responses ≠ [] ∧ s.host.enables.getLsbD 0 = true) ∨
      ((∃ n : Slot, s.expired n = true ∧ (s.win n).owner = .host) ∧ s.host.enables.getLsbD 1 = true) ∨
      ((∃ r : Requester, s.violation r ≠ none) ∧ s.host.enables.getLsbD 2 = true) ∨
      (s.host.drainForced = true ∧ s.host.enables.getLsbD 3 = true) ∨
      (s.host.protocolEvent = true ∧ s.host.enables.getLsbD 4 = true) ∨
      (s.host.ownership = true ∧ s.host.enables.getLsbD 5 = true))

/-- A port reset empties the port, drops the command in hand, sets the host wait count to 0, removes every host owed
response and clears the sticky events; the enable set and everything else stays, but a walk yield with no other claim
left (R26, R129, R152). The flag of the walk yield is the model's reading of R126 (log entry 12). -/
def Obligations.PortReset : Prop :=
  ∀ s : State, s.pornLow = false →
    ∃ t, exec .portReset s = .next t ∧
      t.host = { s.host with
        assembler := .idle, commands := [], responses := [], wordsRead := 0
        drainForced := false, protocolEvent := false, ownership := false, protocolStatus := none } ∧
      t.hostHand = none ∧ t.arbiter = { s.arbiter with hostWait := 0 } ∧
      (∀ n : Slot, t.win n =
        if (s.win n).owed.any (fun o => o.party == .host) = true then { s.win n with owed := none } else s.win n) ∧
      KeepsTableItems s t ∧ YieldSettled s t ∧
      { t with host := s.host, hostHand := s.hostHand, arbiter := s.arbiter, table := s.table, sweep := s.sweep } = s

/-- A write that the register window ignores changes no state (R133, R184). The rows of a supervisor write to EVENT
PENDING with no sticky bit and to PORT CONTROL with the reset bit 0 are the model's reading (log entry 13). -/
def Obligations.IgnoredWriteChangesNothing : Prop :=
  ∀ (s : State) (register : HostRegister) (privilege : Privilege) (word : Word),
    register ∈ [HostRegister.response, .status, .none18, .none1C] ∨
      (register ≠ .command ∧ privilege = .user) ∨
      (register = .eventPending ∧ word.extractLsb' 3 3 = 0#3) ∨
      (register = .portControl ∧ word.getLsbD 0 = false) →
    exec (.ignoredWrite register privilege word) s = .next s

/-- The readable registers show the state field by field, and positions of no field read as 0: STATUS, EVENT PENDING,
EVENT ENABLE, the link status, and the registers that read as 0; the verdict channel codes the verdict it carries (R133,
R134, R149, R157, R184, R185, R186). That the link status shows the state while PORn is low too is the model's choice (log
entry 4). -/
def Obligations.RegistersShowTheState : Prop :=
  (∀ s : State, s.pornLow = false → s.QueuesSound →
    (∀ register ∈ [HostRegister.command, .portControl, .none18, .none1C], s.hostRead register = 0#32) ∧
    (let word := s.hostRead .status
     (word.extractLsb' 0 4).toNat + s.host.commands.length + s.host.assembler.reserved = 8 ∧
     (word.extractLsb' 8 5).toNat = s.host.responses.length ∧
     (word.extractLsb' 16 7).toNat =
       allSlots.countP (fun n => (s.win n).isFree && (s.win n).owed.any fun o => o.party == .host && o.outcome.isSome) ∧
     word.extractLsb' 24 2 = (match s.host.assembler with
       | .idle => 0#2 | .collecting _ _ => 1#2 | .discard _ => 2#2) ∧
     word.extractLsb' 28 3 = (match s.host.assembler with
       | .idle => 0#3 | .collecting _ remaining => BitVec.ofNat 3 remaining | .discard remaining => BitVec.ofNat 3 remaining) ∧
     word &&& 0x8C80E0F0#32 = 0#32) ∧
    (let word := s.hostRead .eventPending
     (word.getLsbD 0 = true ↔ s.host.responses ≠ []) ∧
     (word.getLsbD 1 = true ↔ ∃ n : Slot, s.expired n = true ∧ (s.win n).owner = .host) ∧
     (word.getLsbD 2 = true ↔ ∃ r : Requester, s.violation r ≠ none) ∧
     word.getLsbD 3 = s.host.drainForced ∧ word.getLsbD 4 = s.host.protocolEvent ∧ word.getLsbD 5 = s.host.ownership ∧
     (match s.host.protocolStatus with
       | none => word.extractLsb' 16 3 = 0#3 ∧ word.extractLsb' 20 4 = 0#4
       | some (.tagReuse r) => word.extractLsb' 16 3 = 1#3 ∧ word.extractLsb' 20 4 = BitVec.ofNat 4 r.val
       | some (.badKind r) => word.extractLsb' 16 3 = 2#3 ∧ word.extractLsb' 20 4 = BitVec.ofNat 4 r.val
       | some (.unknownTicket r) => word.extractLsb' 16 3 = 3#3 ∧ word.extractLsb' 20 4 = BitVec.ofNat 4 r.val
       | some (.wrongRequester r) => word.extractLsb' 16 3 = 4#3 ∧ word.extractLsb' 20 4 = BitVec.ofNat 4 r.val
       | some .commandOverflow => word.extractLsb' 16 3 = 5#3 ∧ word.extractLsb' 20 4 = 0#4) ∧
     word &&& 0xFF08FFC0#32 = 0#32) ∧
    (s.hostRead .eventEnable).extractLsb' 0 6 = s.host.enables ∧ (s.hostRead .eventEnable).extractLsb' 6 26 = 0#26) ∧
  (∀ s : State,
    (s.linkStatusWord.getLsbD 0 = true ↔ s.maint.command ≠ none) ∧
    (s.linkStatusWord.getLsbD 1 = true ↔ s.maint.response ≠ none) ∧
    s.linkStatusWord.getLsbD 2 = s.maint.busy ∧ s.linkStatusWord.getLsbD 3 = s.maint.toolPresent ∧
    (s.linkStatusWord.extractLsb' 8 7).toNat =
      allSlots.countP (fun n => (s.win n).isFree && (s.win n).owed.any fun o => o.party == .maint && o.outcome.isSome) ∧
    s.linkStatusWord &&& 0xFFFF80F0#32 = 0#32) ∧
  (∀ (r : Requester) (tag : LookupTag) (answer : Answer),
    let wires := Verdict.bundle ⟨r, tag, answer⟩
    wires.rq = BitVec.ofNat 4 r.val ∧ wires.tag = BitVec.ofNat 2 tag.val ∧
    (match answer with
      | .permit source ticket attrs =>
        wires.kind = 0#3 ∧ wires.reason = 0#3 ∧ SourceOn (some source) wires.src wires.slot ∧
          TicketOn ticket wires.tkv wires.tkt ∧ AttributesOn attrs wires.attr
      | .permitWatched source ticket attrs =>
        wires.kind = 1#3 ∧ wires.reason = 0#3 ∧ SourceOn (some source) wires.src wires.slot ∧
          TicketOn ticket wires.tkv wires.tkt ∧ AttributesOn attrs wires.attr
      | .deny reason source =>
        wires.kind = 2#3 ∧ wires.reason = (match reason with
          | .rights => 1#3 | .miss => 2#3 | .span => 3#3 | .profile => 4#3) ∧
          SourceOn source wires.src wires.slot ∧ TicketOn none wires.tkv wires.tkt ∧ wires.attr = 0#9
      | .retry => wires.kind = 3#3 ∧ wires.reason = 0#3 ∧ SourceOn none wires.src wires.slot ∧
          TicketOn none wires.tkv wires.tkt ∧ wires.attr = 0#9
      | .backoff => wires.kind = 4#3 ∧ wires.reason = 0#3 ∧ SourceOn none wires.src wires.slot ∧
          TicketOn none wires.tkv wires.tkt ∧ wires.attr = 0#9))

/-! ## Table commands -/

/-- [STG] that passes every check: the slot is STAGED with the supplied content, the answer is OK, and no other slot
changes (R80, R81, R82, R180). -/
def Obligations.StageWindow : Prop :=
  ∀ (s : State) (party : Party) (c : Command), s.Granted party .stg c →
    (s.win c.slot).owner = party → (s.win c.slot).isFree = true → (s.win c.slot).owed = none →
    StagedFieldsAccepted (c.data.getD 0 0#32) (c.data.getD 1 0#32) (c.data.getD 2 0#32) (c.data.getD 3 0#32) →
    TemplateAccepted (c.data.getD 0 0#32) (c.data.getD 3 0#32) →
    (∀ t, SuppliesTarget (c.data.getD 0 0#32) (c.data.getD 3 0#32) (some t) → TargetAccepted s party c.slot t) →
    ∃ t w, exec (.stg party) s = .next t ∧
      StagedAs party (c.data.getD 0 0#32) (c.data.getD 1 0#32) (c.data.getD 2 0#32) (c.data.getD 3 0#32) w ∧
      OnlyWindow c.slot w s t ∧ TableOperation party (some ⟨c.tag, .ok, []⟩) s t

/-- [STG] of an own FREE slot that fails a later check: BAD_FIELD, then BAD_TEMPLATE, then BAD_SUPERSEDE, in that order
(R74, R81, R82). -/
def Obligations.StageRefused : Prop :=
  ∀ (s : State) (party : Party) (c : Command), s.Granted party .stg c →
    (s.win c.slot).owner = party → (s.win c.slot).isFree = true → (s.win c.slot).owed = none →
    ∃ t, exec (.stg party) s = .next t ∧
      (¬ StagedFieldsAccepted (c.data.getD 0 0#32) (c.data.getD 1 0#32) (c.data.getD 2 0#32) (c.data.getD 3 0#32) →
        Refused party c .badField s t) ∧
      (StagedFieldsAccepted (c.data.getD 0 0#32) (c.data.getD 1 0#32) (c.data.getD 2 0#32) (c.data.getD 3 0#32) →
        (¬ TemplateAccepted (c.data.getD 0 0#32) (c.data.getD 3 0#32) → Refused party c .badTemplate s t) ∧
        (TemplateAccepted (c.data.getD 0 0#32) (c.data.getD 3 0#32) →
          ∀ n, SuppliesTarget (c.data.getD 0 0#32) (c.data.getD 3 0#32) (some n) →
            ¬ TargetAccepted s party c.slot n → Refused party c .badSupersede s t))

/-- [ABN] of an own STAGED slot: FREE and cleared, answer OK (R83). -/
def Obligations.AbandonWindow : Prop :=
  ∀ (s : State) (party : Party) (c : Command), s.Granted party .abn c →
    (s.win c.slot).owner = party → (s.win c.slot).isStaged = true →
    ∃ t, exec (.abn party) s = .next t ∧ OnlyWindow c.slot (Window.cleared party none) s t ∧
      TableOperation party (some ⟨c.tag, .ok, []⟩) s t

/-- [CMT] when every target named by the party's STAGED windows is LIVE and the party's: each of those windows is LIVE
with remaining at reload and fresh set, each named target leaves LIVE with cause SUPERSEDE, every other window stays,
and the answer is OK with the number made LIVE (R85, R86). -/
def Obligations.CommitWindows : Prop :=
  ∀ (s : State) (party : Party) (c : Command), s.Granted party .cmt c →
    (∀ n t : Slot, (s.win n).state = .staged (some t) → (s.win n).owner = party →
      (s.win t).state = .live ∧ (s.win t).owner = party) →
    ∃ t, exec (.cmt party) s = .next t ∧ KeepsTableItems s t ∧
      (∀ n : Slot,
        ((s.win n).isStaged = true → (s.win n).owner = party →
          t.win n = { s.win n with state := .live, remaining := (s.win n).reload, fresh := true }) ∧
        ((∃ m : Slot, (s.win m).state = .staged (some n) ∧ (s.win m).owner = party) →
          Drained .supersede none (s.use n) (s.win n) (t.win n)) ∧
        (¬ ((s.win n).isStaged = true ∧ (s.win n).owner = party) →
          (¬ ∃ m : Slot, (s.win m).state = .staged (some n) ∧ (s.win m).owner = party) → t.win n = s.win n)) ∧
      TableOperation party (some ⟨c.tag, .ok, [BitVec.ofNat 32
        (allSlots.countP fun n => (s.win n).isStaged && (s.win n).owner == party)]⟩) s t

/-- [CMT] when a target fails the test: the whole commit is refused BAD_SUPERSEDE, naming the lowest failing staged slot
and its target (R85, R183). -/
def Obligations.CommitRefused : Prop :=
  ∀ (s : State) (party : Party) (c : Command) (n t : Slot), s.Granted party .cmt c →
    (s.win n).state = .staged (some t) → (s.win n).owner = party →
    ¬ ((s.win t).state = .live ∧ (s.win t).owner = party) →
    (∀ m u : Slot, m < n → (s.win m).state = .staged (some u) → (s.win m).owner = party →
      (s.win u).state = .live ∧ (s.win u).owner = party) →
    ∃ u, exec (.cmt party) s = .next u ∧ u.table = s.table ∧
      TableOperation party (some ⟨c.tag, .badSupersede, [BitVec.ofNat 32 (t.val * 256 + n.val)]⟩) s u

/-- [RTR] of an own LIVE slot: with a use count of 0 FREE and cleared, answered DRAINED at once; else DRAINING with
cause RETIRE, age 0 and an owed response, and no answer yet (R61, R88). -/
def Obligations.RetireWindow : Prop :=
  ∀ (s : State) (party : Party) (c : Command), s.Granted party .rtr c →
    (s.win c.slot).owner = party → (s.win c.slot).state = .live →
    ∃ t w, exec (.rtr party) s = .next t ∧ OnlyWindow c.slot w s t ∧
      Drained .retire (some ⟨party, c.tag, none⟩) (s.use c.slot) (s.win c.slot) w ∧
      TableOperation party (if s.use c.slot = 0 then some ⟨c.tag, .drained, []⟩ else none) s t

/-- [RNW] of an own LIVE slot: KEEP and REPLACE set remaining to the reload then held and set fresh, and return that
reload; a reserved action is refused BAD_FIELD (R91, R182). -/
def Obligations.RenewLease : Prop :=
  ∀ (s : State) (party : Party) (c : Command), s.Granted party .rnw c →
    (s.win c.slot).owner = party → (s.win c.slot).state = .live →
    (∀ reload : BitVec 8,
      (c.operand.extractLsb' 8 2 = 0#2 ∧ reload = (s.win c.slot).reload) ∨
        (c.operand.extractLsb' 8 2 = 1#2 ∧ reload = c.operand.extractLsb' 10 8) →
      ∃ t, exec (.rnw party) s = .next t ∧
        OnlyWindow c.slot { s.win c.slot with reload := reload, remaining := reload, fresh := true } s t ∧
        TableOperation party (some ⟨c.tag, .ok, [BitVec.ofNat 32 reload.toNat]⟩) s t) ∧
    (2#2 ≤ c.operand.extractLsb' 8 2 →
      ∃ t, exec (.rnw party) s = .next t ∧ Refused party c .badField s t)

/-- [MOD] of an own STAGED or LIVE slot: each bit of the selected word is the value's where the mask holds 1 and the
old one where it holds 0; an accepted new word replaces the old one and the old word is returned with OK; a refused
one changes nothing and the current word is returned with BAD_FIELD; a reserved selector returns 0 (R93, R94). -/
def Obligations.ModifyWord : Prop :=
  ∀ (s : State) (party : Party) (c : Command), s.Granted party .mod c →
    (s.win c.slot).owner = party → (s.win c.slot).isStaged = true ∨ (s.win c.slot).isLive = true →
    ∃ t, exec (.mod party) s = .next t ∧
      (∀ new : Word, (c.data.getD 0 0#32).extractLsb' 0 2 = 0#2 →
        (∀ i : Nat, new.getLsbD i = if (c.data.getD 2 0#32).getLsbD i = true then (c.data.getD 1 0#32).getLsbD i
          else (s.win c.slot).policy.word.getLsbD i) →
        HoldsPolicy (s.win c.slot).policy.word (s.win c.slot).policy ∧ PolicyAccepted (s.win c.slot).policy.word ∧
        (PolicyAccepted new → ∃ policy, HoldsPolicy new policy ∧
          OnlyWindow c.slot { s.win c.slot with policy := policy } s t ∧
          TableOperation party (some ⟨c.tag, .ok, [(s.win c.slot).policy.word]⟩) s t) ∧
        (¬ PolicyAccepted new → t.table = s.table ∧
          TableOperation party (some ⟨c.tag, .badField, [(s.win c.slot).policy.word]⟩) s t)) ∧
      (∀ old new : Word, (c.data.getD 0 0#32).extractLsb' 0 2 = 1#2 →
        old.extractLsb' 0 16 = (s.win c.slot).members → old.extractLsb' 16 3 = (s.win c.slot).rank →
        MembershipAccepted old →
        (∀ i : Nat, new.getLsbD i = if (c.data.getD 2 0#32).getLsbD i = true then (c.data.getD 1 0#32).getLsbD i
          else old.getLsbD i) →
        (MembershipAccepted new →
          OnlyWindow c.slot { s.win c.slot with
            members := new.extractLsb' 0 16, rank := new.extractLsb' 16 3 } s t ∧
          TableOperation party (some ⟨c.tag, .ok, [old]⟩) s t) ∧
        (¬ MembershipAccepted new → t.table = s.table ∧
          TableOperation party (some ⟨c.tag, .badField, [old]⟩) s t)) ∧
      (2#2 ≤ (c.data.getD 0 0#32).extractLsb' 0 2 → t.table = s.table ∧
        TableOperation party (some ⟨c.tag, .badField, [0#32]⟩) s t)

/-- [QRY] reports the record and the use count of any slot in the reported form, and [OWN] one bit for each slot, 1 for
HOST; neither changes the table (R96, R165, R181, R183). -/
def Obligations.QueryAndOwnershipReport : Prop :=
  (∀ (s : State) (party : Party) (c : Command), s.Granted party .qry c →
    ∃ t base policy membership mask, exec (.qry party) s = .next t ∧ t.table = s.table ∧
      ReportedIn (s.win c.slot) (s.use c.slot) base policy membership mask ∧
      TableOperation party (some ⟨c.tag, .ok, [base, policy, membership, mask]⟩) s t) ∧
  (∀ (s : State) (c : Command), s.Granted .host .own c →
    ∃ t low high, exec .own s = .next t ∧ t.table = s.table ∧
      (∀ n : Slot, (s.win n).owner = .host ↔
        (if n.val < 32 then (low : Word).getLsbD n.val else (high : Word).getLsbD (n.val - 32)) = true) ∧
      TableOperation .host (some ⟨c.tag, .ok, [low, high]⟩) s t)

/-- [REX] removes and returns the lowest expiry-set member whose slot the party owns, or answers NONE and changes
nothing (R20, R97). -/
def Obligations.ReadExpired : Prop :=
  ∀ (s : State) (party : Party) (c : Command), s.Granted party .rex c →
    (∀ n : Slot, s.expired n = true → (s.win n).owner = party →
      (∀ m : Slot, m < n → s.expired m = true → (s.win m).owner ≠ party) →
      ∃ t, exec (.rex party) s = .next t ∧
        (∀ m : Slot, t.expired m = if m = n then false else s.expired m) ∧
        { t.table with expiry := s.table.expiry } = s.table ∧
        TableOperation party (some ⟨c.tag, .ok, [BitVec.ofNat 32 n.val]⟩) s t) ∧
    ((∀ n : Slot, s.expired n = true → (s.win n).owner ≠ party) →
      ∃ t, exec (.rex party) s = .next t ∧ Refused party c .none s t)

/-- The owner check comes first, and the state check next: [STG], [ABN], [RTR], [RNW] and [MOD] of the other party's
slot are refused OWNER whatever its state, and of an own slot in a state they do not act on with the status of the
state tables; nothing else changes (R74, R76 to R79). -/
def Obligations.OwnerThenStateRefused : Prop :=
  ∀ (s : State) (party : Party) (c : Command),
    (∀ row ∈ [(Instr.stg party, CommandSym.stg), (.abn party, .abn), (.rtr party, .rtr), (.rnw party, .rnw),
        (.mod party, .mod)],
      s.Granted party row.2 c → (s.win c.slot).owner ≠ party →
      ∃ t, exec row.1 s = .next t ∧ Refused party c .owner s t) ∧
    ((s.win c.slot).owner = party →
      (s.Granted party .stg c → (s.win c.slot).isFree = false ∨ (s.win c.slot).owed ≠ none →
        ∃ t, exec (.stg party) s = .next t ∧ Refused party c .notFree s t) ∧
      (s.Granted party .abn c → (s.win c.slot).isStaged = false →
        ∃ t, exec (.abn party) s = .next t ∧ Refused party c .notStaged s t) ∧
      (∀ row ∈ [(Instr.rtr party, CommandSym.rtr), (.rnw party, .rnw)], s.Granted party row.2 c →
        ((s.win c.slot).isDraining = true →
          ∃ t, exec row.1 s = .next t ∧ Refused party c .leaseGone s t) ∧
        ((s.win c.slot).isFree = true ∨ (s.win c.slot).isStaged = true →
          ∃ t, exec row.1 s = .next t ∧ Refused party c .notLive s t)) ∧
      (s.Granted party .mod c → (s.win c.slot).isFree = true ∨ (s.win c.slot).isDraining = true →
        ∃ t, exec (.mod party) s = .next t ∧ Refused party c .notStagedOrLive s t))

/-- [SDF] replaces the whole default record by an accepted policy word and returns the old one, and refuses another
word with BAD_FIELD; [TEN] makes the mode ACTIVE; [TDS] makes it BOOT and marks a walk in progress to end; windows and
tickets stay (R98, R99, R109, R180). -/
def Obligations.DefaultRecordAndTableMode : Prop :=
  ∀ (s : State) (c : Command),
    (s.Granted .host .sdf c →
      (PolicyAccepted (c.data.getD 0 0#32) → ∃ t policy old, exec .sdf s = .next t ∧
        HoldsPolicy (c.data.getD 0 0#32) policy ∧ t.table = { s.table with defaultRecord := policy } ∧
        HoldsPolicy old s.table.defaultRecord ∧ PolicyAccepted old ∧
        TableOperation .host (some ⟨c.tag, .ok, [old]⟩) s t) ∧
      (¬ PolicyAccepted (c.data.getD 0 0#32) →
        ∃ t, exec .sdf s = .next t ∧ Refused .host c .badField s t)) ∧
    (s.Granted .host .ten c →
      ∃ t, exec .ten s = .next t ∧ t.table = { s.table with mode := .active } ∧
        TableOperation .host (some ⟨c.tag, .ok, []⟩) s t) ∧
    (s.Granted .host .tds c →
      ∃ t, exec .tds s = .next t ∧ t.table = { s.table with mode := .boot } ∧
        TableOperation .host (some ⟨c.tag, .ok, []⟩)
          { s with sweep := { s.sweep with walk := match s.sweep.walk with
              | .idle => .idle
              | .walking next _ => .walking next true } } t)

/-! ## The Maintenance Link and slot ownership -/

/-- A command frame is accepted exactly when the command register and the response register are empty and no MAINT
owed response waits: it is held with BUSY clear, or answered UNKNOWN_COMMAND at once when its number names no tool
command; a refused frame sets BUSY and changes nothing else. COMMAND_FRAME is the update with LINKCMD, code 24h, and an
update with another instruction of the test access port changes nothing (R156, R159, R186). -/
def Obligations.CommandFrameArrives : Prop :=
  (∀ (s : State) (frame : Frame), exec (.commandFrame frame) s = .next (s.linkUpdate 0x24#6 frame) ∧
    ∀ code : BitVec 6, code ≠ 0x24#6 → s.linkUpdate code frame = s) ∧
  ∀ (s : State) (frame : Frame), s.pornLow = false →
    (s.maint.command = none → s.maint.response = none → (∀ n : Slot, (s.win n).waitingResponse .maint = none) →
      exec (.commandFrame frame) s = .next { s with maint := { s.maint with
        busy := false
        command := if symOn .maint (frame.header.extractLsb' 24 8) = none then none else some (Command.ofFrame frame)
        response := if symOn .maint (frame.header.extractLsb' 24 8) = none then
            some ⟨nibbleField frame.header 20, .unknownCommand, []⟩ else none } }) ∧
    (s.maint.command ≠ none ∨ s.maint.response ≠ none ∨ (∃ n : Slot, (s.win n).waitingResponse .maint ≠ none) →
      exec (.commandFrame frame) s = .next { s with maint := { s.maint with busy := true } })

/-- A LINKRSP capture takes the whole response frame, or the empty header and zero words; the register is empty from
then on, unless the lowest waiting MAINT owed response enters it at the same event. RESPONSE_REGISTER_READ is the capture
with LINKRSP, code 25h, and a capture with another instruction changes nothing, the read of the link status with LINKSTAT
among them (R157, R158, R161, R183, R186). -/
def Obligations.ResponseRegisterRead : Prop :=
  (∀ s : State, exec .responseRegisterRead s = .next (s.linkCapture 0x25#6) ∧
    ∀ code : BitVec 6, code ≠ 0x25#6 → s.linkCapture code = s) ∧
  ∀ s : State, s.pornLow = false →
    ∃ t frame, exec .responseRegisterRead s = .next t ∧
      (match s.maint.response with
        | some r => HeaderOf r frame.header ∧ frame.word1 = r.data.getD 0 0#32 ∧ frame.word2 = r.data.getD 1 0#32 ∧
            frame.word3 = r.data.getD 2 0#32 ∧ frame.word4 = r.data.getD 3 0#32
        | none => frame = ⟨0x00000401#32, 0#32, 0#32, 0#32, 0#32⟩) ∧
      ((∀ n : Slot, (s.win n).waitingResponse .maint = none) →
        t = { s with maint := { s.maint with response := none, capture := some frame } }) ∧
      (∀ n r, LowestWaits s .maint n r →
        t.maint = { s.maint with response := some r, capture := some frame } ∧
        OnlyWindow n { s.win n with owed := none } s t ∧
        { t with maint := s.maint, table := s.table } = s)

/-- A link reset empties both registers, drops the tool's command, clears BUSY and removes every MAINT owed response;
TOOLPRES, every owner, every window's state and fields and everything else stays, but a walk yield with no other claim
left (R26, R129, R167). That the capture path holds nothing afterwards is the model's choice (log entry 6), and so is
that a link reset acts while PORn is low too (log entry 4). The flag of the walk yield is the model's reading of R126
(log entry 12). -/
def Obligations.LinkReset : Prop :=
  ∀ s : State, ∃ t, exec .linkReset s = .next t ∧
    t.maint = { s.maint with command := none, response := none, busy := false, capture := none } ∧
    (∀ n : Slot, t.win n =
      if (s.win n).owed.any (fun o => o.party == .maint) = true then { s.win n with owed := none } else s.win n) ∧
    KeepsTableItems s t ∧ YieldSettled s t ∧ { t with maint := s.maint, table := s.table, sweep := s.sweep } = s

/-- [GRT] and [RCL] move the FREE, unheld slots of the giving party in the range, change their owner alone, answer OK
with their number and raise OWNERSHIP when a slot moved; a range out of order is refused BAD_FIELD (R162, R164). -/
def Obligations.SlotsMove : Prop :=
  ∀ (s : State) (c : Command), ∀ row ∈ [(Instr.grt, CommandSym.grt, Party.maint, Party.host),
      (.rcl, .rcl, .host, .maint)],
    s.Granted .maint row.2.1 c →
    (∀ first last : Slot, first.val = (c.operand.extractLsb' 0 6).toNat →
      last.val = (c.operand.extractLsb' 8 6).toNat →
      (last < first → ∃ t, exec row.1 s = .next t ∧ Refused .maint c .badField s t) ∧
      (first ≤ last →
        ∃ t moved, exec row.1 s = .next t ∧ moved.Nodup ∧
          (∀ n : Slot, n ∈ moved ↔ first ≤ n ∧ n ≤ last ∧ (s.win n).isFree = true ∧ (s.win n).owed = none ∧
            (s.win n).owner = row.2.2.1) ∧
          (∀ n : Slot, t.win n = if n ∈ moved then { s.win n with owner := row.2.2.2 } else s.win n) ∧
          KeepsTableItems s t ∧
          TableOperation .maint (some ⟨c.tag, .ok, [BitVec.ofNat 32 moved.length]⟩)
            { s with host := { s.host with
              ownership := if moved = [] then s.host.ownership else true } } t))
end

