-- ==== Sys2Proof/Laws/State.lean ====
section
/-! SUPPORT. For every update of the state, one lemma per field: the field it changes reads as the update says, and
every other field reads as before. Then the reads of one window, member, ticket, use count, profile and violation
record after each update. -/

namespace Sys2Proof.Machine

variable (s : State)

/-! ### setWindows -/

@[simp] theorem State.setWindows_table (v : Vector Window 64) : (s.setWindows v).table = { s.table with windows := v } := rfl
@[simp] theorem State.setWindows_arbiter (v : Vector Window 64) : (s.setWindows v).arbiter = s.arbiter := rfl
@[simp] theorem State.setWindows_lookup (v : Vector Window 64) : (s.setWindows v).lookup = s.lookup := rfl
@[simp] theorem State.setWindows_pool (v : Vector Window 64) : (s.setWindows v).pool = s.pool := rfl
@[simp] theorem State.setWindows_timer (v : Vector Window 64) : (s.setWindows v).timer = s.timer := rfl
@[simp] theorem State.setWindows_sweep (v : Vector Window 64) : (s.setWindows v).sweep = s.sweep := rfl
@[simp] theorem State.setWindows_profiles (v : Vector Window 64) : (s.setWindows v).profiles = s.profiles := rfl
@[simp] theorem State.setWindows_violations (v : Vector Window 64) : (s.setWindows v).violations = s.violations := rfl
@[simp] theorem State.setWindows_host (v : Vector Window 64) : (s.setWindows v).host = s.host := rfl
@[simp] theorem State.setWindows_hostHand (v : Vector Window 64) : (s.setWindows v).hostHand = s.hostHand := rfl
@[simp] theorem State.setWindows_maint (v : Vector Window 64) : (s.setWindows v).maint = s.maint := rfl
@[simp] theorem State.setWindows_pornLow (v : Vector Window 64) : (s.setWindows v).pornLow = s.pornLow := rfl
@[simp] theorem State.setWindows_frst (v : Vector Window 64) : (s.setWindows v).frst = s.frst := rfl
@[simp] theorem State.setWindows_freeReads (v : Vector Window 64) : (s.setWindows v).freeReads = s.freeReads := rfl
@[simp] theorem State.setWindows_pending (v : Vector Window 64) : (s.setWindows v).pending = s.pending := rfl
@[simp] theorem State.setWindows_expired (v : Vector Window 64) (m : Slot) : (s.setWindows v).expired m = s.expired m := rfl
@[simp] theorem State.setWindows_use (v : Vector Window 64) (m : Slot) : (s.setWindows v).use m = s.use m := rfl
@[simp] theorem State.setWindows_ticket (v : Vector Window 64) (j : TicketNo) : (s.setWindows v).ticket j = s.ticket j := rfl
@[simp] theorem State.setWindows_profile (v : Vector Window 64) (q : Requester) : (s.setWindows v).profile q = s.profile q := rfl
@[simp] theorem State.setWindows_violation (v : Vector Window 64) (q : Requester) : (s.setWindows v).violation q = s.violation q := rfl

/-! ### setWin -/

@[simp] theorem State.setWin_table (n : Slot) (w : Window) : (s.setWin n w).table = { s.table with windows := s.table.windows.set n.val w } := rfl
@[simp] theorem State.setWin_arbiter (n : Slot) (w : Window) : (s.setWin n w).arbiter = s.arbiter := rfl
@[simp] theorem State.setWin_lookup (n : Slot) (w : Window) : (s.setWin n w).lookup = s.lookup := rfl
@[simp] theorem State.setWin_pool (n : Slot) (w : Window) : (s.setWin n w).pool = s.pool := rfl
@[simp] theorem State.setWin_timer (n : Slot) (w : Window) : (s.setWin n w).timer = s.timer := rfl
@[simp] theorem State.setWin_sweep (n : Slot) (w : Window) : (s.setWin n w).sweep = s.sweep := rfl
@[simp] theorem State.setWin_profiles (n : Slot) (w : Window) : (s.setWin n w).profiles = s.profiles := rfl
@[simp] theorem State.setWin_violations (n : Slot) (w : Window) : (s.setWin n w).violations = s.violations := rfl
@[simp] theorem State.setWin_host (n : Slot) (w : Window) : (s.setWin n w).host = s.host := rfl
@[simp] theorem State.setWin_hostHand (n : Slot) (w : Window) : (s.setWin n w).hostHand = s.hostHand := rfl
@[simp] theorem State.setWin_maint (n : Slot) (w : Window) : (s.setWin n w).maint = s.maint := rfl
@[simp] theorem State.setWin_pornLow (n : Slot) (w : Window) : (s.setWin n w).pornLow = s.pornLow := rfl
@[simp] theorem State.setWin_frst (n : Slot) (w : Window) : (s.setWin n w).frst = s.frst := rfl
@[simp] theorem State.setWin_freeReads (n : Slot) (w : Window) : (s.setWin n w).freeReads = s.freeReads := rfl
@[simp] theorem State.setWin_pending (n : Slot) (w : Window) : (s.setWin n w).pending = s.pending := rfl
@[simp] theorem State.setWin_expired (n : Slot) (w : Window) (m : Slot) : (s.setWin n w).expired m = s.expired m := rfl
@[simp] theorem State.setWin_use (n : Slot) (w : Window) (m : Slot) : (s.setWin n w).use m = s.use m := rfl
@[simp] theorem State.setWin_ticket (n : Slot) (w : Window) (j : TicketNo) : (s.setWin n w).ticket j = s.ticket j := rfl
@[simp] theorem State.setWin_profile (n : Slot) (w : Window) (q : Requester) : (s.setWin n w).profile q = s.profile q := rfl
@[simp] theorem State.setWin_violation (n : Slot) (w : Window) (q : Requester) : (s.setWin n w).violation q = s.violation q := rfl

/-! ### mapWindows -/

@[simp] theorem State.mapWindows_table (f : Slot → Window → Window) : (s.mapWindows f).table = { s.table with windows := Vector.ofFn fun n => f n (s.win n) } := s.setWindows_table _
@[simp] theorem State.mapWindows_arbiter (f : Slot → Window → Window) : (s.mapWindows f).arbiter = s.arbiter := s.setWindows_arbiter _
@[simp] theorem State.mapWindows_lookup (f : Slot → Window → Window) : (s.mapWindows f).lookup = s.lookup := s.setWindows_lookup _
@[simp] theorem State.mapWindows_pool (f : Slot → Window → Window) : (s.mapWindows f).pool = s.pool := s.setWindows_pool _
@[simp] theorem State.mapWindows_timer (f : Slot → Window → Window) : (s.mapWindows f).timer = s.timer := s.setWindows_timer _
@[simp] theorem State.mapWindows_sweep (f : Slot → Window → Window) : (s.mapWindows f).sweep = s.sweep := s.setWindows_sweep _
@[simp] theorem State.mapWindows_profiles (f : Slot → Window → Window) : (s.mapWindows f).profiles = s.profiles := s.setWindows_profiles _
@[simp] theorem State.mapWindows_violations (f : Slot → Window → Window) : (s.mapWindows f).violations = s.violations := s.setWindows_violations _
@[simp] theorem State.mapWindows_host (f : Slot → Window → Window) : (s.mapWindows f).host = s.host := s.setWindows_host _
@[simp] theorem State.mapWindows_hostHand (f : Slot → Window → Window) : (s.mapWindows f).hostHand = s.hostHand := s.setWindows_hostHand _
@[simp] theorem State.mapWindows_maint (f : Slot → Window → Window) : (s.mapWindows f).maint = s.maint := s.setWindows_maint _
@[simp] theorem State.mapWindows_pornLow (f : Slot → Window → Window) : (s.mapWindows f).pornLow = s.pornLow := s.setWindows_pornLow _
@[simp] theorem State.mapWindows_frst (f : Slot → Window → Window) : (s.mapWindows f).frst = s.frst := s.setWindows_frst _
@[simp] theorem State.mapWindows_freeReads (f : Slot → Window → Window) : (s.mapWindows f).freeReads = s.freeReads := s.setWindows_freeReads _
@[simp] theorem State.mapWindows_pending (f : Slot → Window → Window) : (s.mapWindows f).pending = s.pending := s.setWindows_pending _
@[simp] theorem State.mapWindows_expired (f : Slot → Window → Window) (m : Slot) : (s.mapWindows f).expired m = s.expired m := s.setWindows_expired _ m
@[simp] theorem State.mapWindows_use (f : Slot → Window → Window) (m : Slot) : (s.mapWindows f).use m = s.use m := s.setWindows_use _ m
@[simp] theorem State.mapWindows_ticket (f : Slot → Window → Window) (j : TicketNo) : (s.mapWindows f).ticket j = s.ticket j := s.setWindows_ticket _ j
@[simp] theorem State.mapWindows_profile (f : Slot → Window → Window) (q : Requester) : (s.mapWindows f).profile q = s.profile q := s.setWindows_profile _ q
@[simp] theorem State.mapWindows_violation (f : Slot → Window → Window) (q : Requester) : (s.mapWindows f).violation q = s.violation q := s.setWindows_violation _ q

/-! ### setExpired -/

@[simp] theorem State.setExpired_table (n : Slot) (b : Bool) : (s.setExpired n b).table = { s.table with expiry := s.table.expiry.set n.val b } := rfl
@[simp] theorem State.setExpired_arbiter (n : Slot) (b : Bool) : (s.setExpired n b).arbiter = s.arbiter := rfl
@[simp] theorem State.setExpired_lookup (n : Slot) (b : Bool) : (s.setExpired n b).lookup = s.lookup := rfl
@[simp] theorem State.setExpired_pool (n : Slot) (b : Bool) : (s.setExpired n b).pool = s.pool := rfl
@[simp] theorem State.setExpired_timer (n : Slot) (b : Bool) : (s.setExpired n b).timer = s.timer := rfl
@[simp] theorem State.setExpired_sweep (n : Slot) (b : Bool) : (s.setExpired n b).sweep = s.sweep := rfl
@[simp] theorem State.setExpired_profiles (n : Slot) (b : Bool) : (s.setExpired n b).profiles = s.profiles := rfl
@[simp] theorem State.setExpired_violations (n : Slot) (b : Bool) : (s.setExpired n b).violations = s.violations := rfl
@[simp] theorem State.setExpired_host (n : Slot) (b : Bool) : (s.setExpired n b).host = s.host := rfl
@[simp] theorem State.setExpired_hostHand (n : Slot) (b : Bool) : (s.setExpired n b).hostHand = s.hostHand := rfl
@[simp] theorem State.setExpired_maint (n : Slot) (b : Bool) : (s.setExpired n b).maint = s.maint := rfl
@[simp] theorem State.setExpired_pornLow (n : Slot) (b : Bool) : (s.setExpired n b).pornLow = s.pornLow := rfl
@[simp] theorem State.setExpired_frst (n : Slot) (b : Bool) : (s.setExpired n b).frst = s.frst := rfl
@[simp] theorem State.setExpired_freeReads (n : Slot) (b : Bool) : (s.setExpired n b).freeReads = s.freeReads := rfl
@[simp] theorem State.setExpired_pending (n : Slot) (b : Bool) : (s.setExpired n b).pending = s.pending := rfl
@[simp] theorem State.setExpired_win (n : Slot) (b : Bool) (m : Slot) : (s.setExpired n b).win m = s.win m := rfl
@[simp] theorem State.setExpired_use (n : Slot) (b : Bool) (m : Slot) : (s.setExpired n b).use m = s.use m := rfl
@[simp] theorem State.setExpired_ticket (n : Slot) (b : Bool) (j : TicketNo) : (s.setExpired n b).ticket j = s.ticket j := rfl
@[simp] theorem State.setExpired_profile (n : Slot) (b : Bool) (q : Requester) : (s.setExpired n b).profile q = s.profile q := rfl
@[simp] theorem State.setExpired_violation (n : Slot) (b : Bool) (q : Requester) : (s.setExpired n b).violation q = s.violation q := rfl

/-! ### setMode -/

@[simp] theorem State.setMode_table (mode : TableMode) : (s.setMode mode).table = { s.table with mode := mode } := rfl
@[simp] theorem State.setMode_arbiter (mode : TableMode) : (s.setMode mode).arbiter = s.arbiter := rfl
@[simp] theorem State.setMode_lookup (mode : TableMode) : (s.setMode mode).lookup = s.lookup := rfl
@[simp] theorem State.setMode_pool (mode : TableMode) : (s.setMode mode).pool = s.pool := rfl
@[simp] theorem State.setMode_timer (mode : TableMode) : (s.setMode mode).timer = s.timer := rfl
@[simp] theorem State.setMode_sweep (mode : TableMode) : (s.setMode mode).sweep = s.sweep := rfl
@[simp] theorem State.setMode_profiles (mode : TableMode) : (s.setMode mode).profiles = s.profiles := rfl
@[simp] theorem State.setMode_violations (mode : TableMode) : (s.setMode mode).violations = s.violations := rfl
@[simp] theorem State.setMode_host (mode : TableMode) : (s.setMode mode).host = s.host := rfl
@[simp] theorem State.setMode_hostHand (mode : TableMode) : (s.setMode mode).hostHand = s.hostHand := rfl
@[simp] theorem State.setMode_maint (mode : TableMode) : (s.setMode mode).maint = s.maint := rfl
@[simp] theorem State.setMode_pornLow (mode : TableMode) : (s.setMode mode).pornLow = s.pornLow := rfl
@[simp] theorem State.setMode_frst (mode : TableMode) : (s.setMode mode).frst = s.frst := rfl
@[simp] theorem State.setMode_freeReads (mode : TableMode) : (s.setMode mode).freeReads = s.freeReads := rfl
@[simp] theorem State.setMode_pending (mode : TableMode) : (s.setMode mode).pending = s.pending := rfl
@[simp] theorem State.setMode_win (mode : TableMode) (m : Slot) : (s.setMode mode).win m = s.win m := rfl
@[simp] theorem State.setMode_expired (mode : TableMode) (m : Slot) : (s.setMode mode).expired m = s.expired m := rfl
@[simp] theorem State.setMode_use (mode : TableMode) (m : Slot) : (s.setMode mode).use m = s.use m := rfl
@[simp] theorem State.setMode_ticket (mode : TableMode) (j : TicketNo) : (s.setMode mode).ticket j = s.ticket j := rfl
@[simp] theorem State.setMode_profile (mode : TableMode) (q : Requester) : (s.setMode mode).profile q = s.profile q := rfl
@[simp] theorem State.setMode_violation (mode : TableMode) (q : Requester) : (s.setMode mode).violation q = s.violation q := rfl

/-! ### setDefault -/

@[simp] theorem State.setDefault_table (p : Policy) : (s.setDefault p).table = { s.table with defaultRecord := p } := rfl
@[simp] theorem State.setDefault_arbiter (p : Policy) : (s.setDefault p).arbiter = s.arbiter := rfl
@[simp] theorem State.setDefault_lookup (p : Policy) : (s.setDefault p).lookup = s.lookup := rfl
@[simp] theorem State.setDefault_pool (p : Policy) : (s.setDefault p).pool = s.pool := rfl
@[simp] theorem State.setDefault_timer (p : Policy) : (s.setDefault p).timer = s.timer := rfl
@[simp] theorem State.setDefault_sweep (p : Policy) : (s.setDefault p).sweep = s.sweep := rfl
@[simp] theorem State.setDefault_profiles (p : Policy) : (s.setDefault p).profiles = s.profiles := rfl
@[simp] theorem State.setDefault_violations (p : Policy) : (s.setDefault p).violations = s.violations := rfl
@[simp] theorem State.setDefault_host (p : Policy) : (s.setDefault p).host = s.host := rfl
@[simp] theorem State.setDefault_hostHand (p : Policy) : (s.setDefault p).hostHand = s.hostHand := rfl
@[simp] theorem State.setDefault_maint (p : Policy) : (s.setDefault p).maint = s.maint := rfl
@[simp] theorem State.setDefault_pornLow (p : Policy) : (s.setDefault p).pornLow = s.pornLow := rfl
@[simp] theorem State.setDefault_frst (p : Policy) : (s.setDefault p).frst = s.frst := rfl
@[simp] theorem State.setDefault_freeReads (p : Policy) : (s.setDefault p).freeReads = s.freeReads := rfl
@[simp] theorem State.setDefault_pending (p : Policy) : (s.setDefault p).pending = s.pending := rfl
@[simp] theorem State.setDefault_win (p : Policy) (m : Slot) : (s.setDefault p).win m = s.win m := rfl
@[simp] theorem State.setDefault_expired (p : Policy) (m : Slot) : (s.setDefault p).expired m = s.expired m := rfl
@[simp] theorem State.setDefault_use (p : Policy) (m : Slot) : (s.setDefault p).use m = s.use m := rfl
@[simp] theorem State.setDefault_ticket (p : Policy) (j : TicketNo) : (s.setDefault p).ticket j = s.ticket j := rfl
@[simp] theorem State.setDefault_profile (p : Policy) (q : Requester) : (s.setDefault p).profile q = s.profile q := rfl
@[simp] theorem State.setDefault_violation (p : Policy) (q : Requester) : (s.setDefault p).violation q = s.violation q := rfl

/-! ### setTicket -/

@[simp] theorem State.setTicket_table (k : TicketNo) (x : Ticket) : (s.setTicket k x).table = s.table := rfl
@[simp] theorem State.setTicket_arbiter (k : TicketNo) (x : Ticket) : (s.setTicket k x).arbiter = s.arbiter := rfl
@[simp] theorem State.setTicket_lookup (k : TicketNo) (x : Ticket) : (s.setTicket k x).lookup = s.lookup := rfl
@[simp] theorem State.setTicket_pool (k : TicketNo) (x : Ticket) : (s.setTicket k x).pool = { s.pool with tickets := s.pool.tickets.set k.val x } := rfl
@[simp] theorem State.setTicket_timer (k : TicketNo) (x : Ticket) : (s.setTicket k x).timer = s.timer := rfl
@[simp] theorem State.setTicket_sweep (k : TicketNo) (x : Ticket) : (s.setTicket k x).sweep = s.sweep := rfl
@[simp] theorem State.setTicket_profiles (k : TicketNo) (x : Ticket) : (s.setTicket k x).profiles = s.profiles := rfl
@[simp] theorem State.setTicket_violations (k : TicketNo) (x : Ticket) : (s.setTicket k x).violations = s.violations := rfl
@[simp] theorem State.setTicket_host (k : TicketNo) (x : Ticket) : (s.setTicket k x).host = s.host := rfl
@[simp] theorem State.setTicket_hostHand (k : TicketNo) (x : Ticket) : (s.setTicket k x).hostHand = s.hostHand := rfl
@[simp] theorem State.setTicket_maint (k : TicketNo) (x : Ticket) : (s.setTicket k x).maint = s.maint := rfl
@[simp] theorem State.setTicket_pornLow (k : TicketNo) (x : Ticket) : (s.setTicket k x).pornLow = s.pornLow := rfl
@[simp] theorem State.setTicket_frst (k : TicketNo) (x : Ticket) : (s.setTicket k x).frst = s.frst := rfl
@[simp] theorem State.setTicket_freeReads (k : TicketNo) (x : Ticket) : (s.setTicket k x).freeReads = s.freeReads := rfl
@[simp] theorem State.setTicket_pending (k : TicketNo) (x : Ticket) : (s.setTicket k x).pending = s.pending := rfl
@[simp] theorem State.setTicket_win (k : TicketNo) (x : Ticket) (m : Slot) : (s.setTicket k x).win m = s.win m := rfl
@[simp] theorem State.setTicket_expired (k : TicketNo) (x : Ticket) (m : Slot) : (s.setTicket k x).expired m = s.expired m := rfl
@[simp] theorem State.setTicket_use (k : TicketNo) (x : Ticket) (m : Slot) : (s.setTicket k x).use m = s.use m := rfl
@[simp] theorem State.setTicket_profile (k : TicketNo) (x : Ticket) (q : Requester) : (s.setTicket k x).profile q = s.profile q := rfl
@[simp] theorem State.setTicket_violation (k : TicketNo) (x : Ticket) (q : Requester) : (s.setTicket k x).violation q = s.violation q := rfl

/-! ### setUse -/

@[simp] theorem State.setUse_table (n : Slot) (x : Nat) : (s.setUse n x).table = s.table := rfl
@[simp] theorem State.setUse_arbiter (n : Slot) (x : Nat) : (s.setUse n x).arbiter = s.arbiter := rfl
@[simp] theorem State.setUse_lookup (n : Slot) (x : Nat) : (s.setUse n x).lookup = s.lookup := rfl
@[simp] theorem State.setUse_pool (n : Slot) (x : Nat) : (s.setUse n x).pool = { s.pool with useCount := s.pool.useCount.set n.val x } := rfl
@[simp] theorem State.setUse_timer (n : Slot) (x : Nat) : (s.setUse n x).timer = s.timer := rfl
@[simp] theorem State.setUse_sweep (n : Slot) (x : Nat) : (s.setUse n x).sweep = s.sweep := rfl
@[simp] theorem State.setUse_profiles (n : Slot) (x : Nat) : (s.setUse n x).profiles = s.profiles := rfl
@[simp] theorem State.setUse_violations (n : Slot) (x : Nat) : (s.setUse n x).violations = s.violations := rfl
@[simp] theorem State.setUse_host (n : Slot) (x : Nat) : (s.setUse n x).host = s.host := rfl
@[simp] theorem State.setUse_hostHand (n : Slot) (x : Nat) : (s.setUse n x).hostHand = s.hostHand := rfl
@[simp] theorem State.setUse_maint (n : Slot) (x : Nat) : (s.setUse n x).maint = s.maint := rfl
@[simp] theorem State.setUse_pornLow (n : Slot) (x : Nat) : (s.setUse n x).pornLow = s.pornLow := rfl
@[simp] theorem State.setUse_frst (n : Slot) (x : Nat) : (s.setUse n x).frst = s.frst := rfl
@[simp] theorem State.setUse_freeReads (n : Slot) (x : Nat) : (s.setUse n x).freeReads = s.freeReads := rfl
@[simp] theorem State.setUse_pending (n : Slot) (x : Nat) : (s.setUse n x).pending = s.pending := rfl
@[simp] theorem State.setUse_win (n : Slot) (x : Nat) (m : Slot) : (s.setUse n x).win m = s.win m := rfl
@[simp] theorem State.setUse_expired (n : Slot) (x : Nat) (m : Slot) : (s.setUse n x).expired m = s.expired m := rfl
@[simp] theorem State.setUse_ticket (n : Slot) (x : Nat) (j : TicketNo) : (s.setUse n x).ticket j = s.ticket j := rfl
@[simp] theorem State.setUse_profile (n : Slot) (x : Nat) (q : Requester) : (s.setUse n x).profile q = s.profile q := rfl
@[simp] theorem State.setUse_violation (n : Slot) (x : Nat) (q : Requester) : (s.setUse n x).violation q = s.violation q := rfl

/-! ### setProfile -/

@[simp] theorem State.setProfile_table (r : Requester) (p : Profile) : (s.setProfile r p).table = s.table := rfl
@[simp] theorem State.setProfile_arbiter (r : Requester) (p : Profile) : (s.setProfile r p).arbiter = s.arbiter := rfl
@[simp] theorem State.setProfile_lookup (r : Requester) (p : Profile) : (s.setProfile r p).lookup = s.lookup := rfl
@[simp] theorem State.setProfile_pool (r : Requester) (p : Profile) : (s.setProfile r p).pool = s.pool := rfl
@[simp] theorem State.setProfile_timer (r : Requester) (p : Profile) : (s.setProfile r p).timer = s.timer := rfl
@[simp] theorem State.setProfile_sweep (r : Requester) (p : Profile) : (s.setProfile r p).sweep = s.sweep := rfl
@[simp] theorem State.setProfile_profiles (r : Requester) (p : Profile) : (s.setProfile r p).profiles = s.profiles.set r.val p := rfl
@[simp] theorem State.setProfile_violations (r : Requester) (p : Profile) : (s.setProfile r p).violations = s.violations := rfl
@[simp] theorem State.setProfile_host (r : Requester) (p : Profile) : (s.setProfile r p).host = s.host := rfl
@[simp] theorem State.setProfile_hostHand (r : Requester) (p : Profile) : (s.setProfile r p).hostHand = s.hostHand := rfl
@[simp] theorem State.setProfile_maint (r : Requester) (p : Profile) : (s.setProfile r p).maint = s.maint := rfl
@[simp] theorem State.setProfile_pornLow (r : Requester) (p : Profile) : (s.setProfile r p).pornLow = s.pornLow := rfl
@[simp] theorem State.setProfile_frst (r : Requester) (p : Profile) : (s.setProfile r p).frst = s.frst := rfl
@[simp] theorem State.setProfile_freeReads (r : Requester) (p : Profile) : (s.setProfile r p).freeReads = s.freeReads := rfl
@[simp] theorem State.setProfile_pending (r : Requester) (p : Profile) : (s.setProfile r p).pending = s.pending := rfl
@[simp] theorem State.setProfile_win (r : Requester) (p : Profile) (m : Slot) : (s.setProfile r p).win m = s.win m := rfl
@[simp] theorem State.setProfile_expired (r : Requester) (p : Profile) (m : Slot) : (s.setProfile r p).expired m = s.expired m := rfl
@[simp] theorem State.setProfile_use (r : Requester) (p : Profile) (m : Slot) : (s.setProfile r p).use m = s.use m := rfl
@[simp] theorem State.setProfile_ticket (r : Requester) (p : Profile) (j : TicketNo) : (s.setProfile r p).ticket j = s.ticket j := rfl
@[simp] theorem State.setProfile_violation (r : Requester) (p : Profile) (q : Requester) : (s.setProfile r p).violation q = s.violation q := rfl

/-! ### setViolation -/

@[simp] theorem State.setViolation_table (r : Requester) (v : Option Violation) : (s.setViolation r v).table = s.table := rfl
@[simp] theorem State.setViolation_arbiter (r : Requester) (v : Option Violation) : (s.setViolation r v).arbiter = s.arbiter := rfl
@[simp] theorem State.setViolation_lookup (r : Requester) (v : Option Violation) : (s.setViolation r v).lookup = s.lookup := rfl
@[simp] theorem State.setViolation_pool (r : Requester) (v : Option Violation) : (s.setViolation r v).pool = s.pool := rfl
@[simp] theorem State.setViolation_timer (r : Requester) (v : Option Violation) : (s.setViolation r v).timer = s.timer := rfl
@[simp] theorem State.setViolation_sweep (r : Requester) (v : Option Violation) : (s.setViolation r v).sweep = s.sweep := rfl
@[simp] theorem State.setViolation_profiles (r : Requester) (v : Option Violation) : (s.setViolation r v).profiles = s.profiles := rfl
@[simp] theorem State.setViolation_violations (r : Requester) (v : Option Violation) : (s.setViolation r v).violations = s.violations.set r.val v := rfl
@[simp] theorem State.setViolation_host (r : Requester) (v : Option Violation) : (s.setViolation r v).host = s.host := rfl
@[simp] theorem State.setViolation_hostHand (r : Requester) (v : Option Violation) : (s.setViolation r v).hostHand = s.hostHand := rfl
@[simp] theorem State.setViolation_maint (r : Requester) (v : Option Violation) : (s.setViolation r v).maint = s.maint := rfl
@[simp] theorem State.setViolation_pornLow (r : Requester) (v : Option Violation) : (s.setViolation r v).pornLow = s.pornLow := rfl
@[simp] theorem State.setViolation_frst (r : Requester) (v : Option Violation) : (s.setViolation r v).frst = s.frst := rfl
@[simp] theorem State.setViolation_freeReads (r : Requester) (v : Option Violation) : (s.setViolation r v).freeReads = s.freeReads := rfl
@[simp] theorem State.setViolation_pending (r : Requester) (v : Option Violation) : (s.setViolation r v).pending = s.pending := rfl
@[simp] theorem State.setViolation_win (r : Requester) (v : Option Violation) (m : Slot) : (s.setViolation r v).win m = s.win m := rfl
@[simp] theorem State.setViolation_expired (r : Requester) (v : Option Violation) (m : Slot) : (s.setViolation r v).expired m = s.expired m := rfl
@[simp] theorem State.setViolation_use (r : Requester) (v : Option Violation) (m : Slot) : (s.setViolation r v).use m = s.use m := rfl
@[simp] theorem State.setViolation_ticket (r : Requester) (v : Option Violation) (j : TicketNo) : (s.setViolation r v).ticket j = s.ticket j := rfl
@[simp] theorem State.setViolation_profile (r : Requester) (v : Option Violation) (q : Requester) : (s.setViolation r v).profile q = s.profile q := rfl

/-! ### setWalk -/

@[simp] theorem State.setWalk_table (x : Walk) : (s.setWalk x).table = s.table := rfl
@[simp] theorem State.setWalk_arbiter (x : Walk) : (s.setWalk x).arbiter = s.arbiter := rfl
@[simp] theorem State.setWalk_lookup (x : Walk) : (s.setWalk x).lookup = s.lookup := rfl
@[simp] theorem State.setWalk_pool (x : Walk) : (s.setWalk x).pool = s.pool := rfl
@[simp] theorem State.setWalk_timer (x : Walk) : (s.setWalk x).timer = s.timer := rfl
@[simp] theorem State.setWalk_sweep (x : Walk) : (s.setWalk x).sweep = { s.sweep with walk := x } := rfl
@[simp] theorem State.setWalk_profiles (x : Walk) : (s.setWalk x).profiles = s.profiles := rfl
@[simp] theorem State.setWalk_violations (x : Walk) : (s.setWalk x).violations = s.violations := rfl
@[simp] theorem State.setWalk_host (x : Walk) : (s.setWalk x).host = s.host := rfl
@[simp] theorem State.setWalk_hostHand (x : Walk) : (s.setWalk x).hostHand = s.hostHand := rfl
@[simp] theorem State.setWalk_maint (x : Walk) : (s.setWalk x).maint = s.maint := rfl
@[simp] theorem State.setWalk_pornLow (x : Walk) : (s.setWalk x).pornLow = s.pornLow := rfl
@[simp] theorem State.setWalk_frst (x : Walk) : (s.setWalk x).frst = s.frst := rfl
@[simp] theorem State.setWalk_freeReads (x : Walk) : (s.setWalk x).freeReads = s.freeReads := rfl
@[simp] theorem State.setWalk_pending (x : Walk) : (s.setWalk x).pending = s.pending := rfl
@[simp] theorem State.setWalk_win (x : Walk) (m : Slot) : (s.setWalk x).win m = s.win m := rfl
@[simp] theorem State.setWalk_expired (x : Walk) (m : Slot) : (s.setWalk x).expired m = s.expired m := rfl
@[simp] theorem State.setWalk_use (x : Walk) (m : Slot) : (s.setWalk x).use m = s.use m := rfl
@[simp] theorem State.setWalk_ticket (x : Walk) (j : TicketNo) : (s.setWalk x).ticket j = s.ticket j := rfl
@[simp] theorem State.setWalk_profile (x : Walk) (q : Requester) : (s.setWalk x).profile q = s.profile q := rfl
@[simp] theorem State.setWalk_violation (x : Walk) (q : Requester) : (s.setWalk x).violation q = s.violation q := rfl

/-! ### setHand -/

@[simp] theorem State.setHand_table (h : Option HostCommand) : (s.setHand h).table = s.table := rfl
@[simp] theorem State.setHand_arbiter (h : Option HostCommand) : (s.setHand h).arbiter = s.arbiter := rfl
@[simp] theorem State.setHand_lookup (h : Option HostCommand) : (s.setHand h).lookup = s.lookup := rfl
@[simp] theorem State.setHand_pool (h : Option HostCommand) : (s.setHand h).pool = s.pool := rfl
@[simp] theorem State.setHand_timer (h : Option HostCommand) : (s.setHand h).timer = s.timer := rfl
@[simp] theorem State.setHand_sweep (h : Option HostCommand) : (s.setHand h).sweep = s.sweep := rfl
@[simp] theorem State.setHand_profiles (h : Option HostCommand) : (s.setHand h).profiles = s.profiles := rfl
@[simp] theorem State.setHand_violations (h : Option HostCommand) : (s.setHand h).violations = s.violations := rfl
@[simp] theorem State.setHand_host (h : Option HostCommand) : (s.setHand h).host = s.host := rfl
@[simp] theorem State.setHand_hostHand (h : Option HostCommand) : (s.setHand h).hostHand = h := rfl
@[simp] theorem State.setHand_maint (h : Option HostCommand) : (s.setHand h).maint = s.maint := rfl
@[simp] theorem State.setHand_pornLow (h : Option HostCommand) : (s.setHand h).pornLow = s.pornLow := rfl
@[simp] theorem State.setHand_frst (h : Option HostCommand) : (s.setHand h).frst = s.frst := rfl
@[simp] theorem State.setHand_freeReads (h : Option HostCommand) : (s.setHand h).freeReads = s.freeReads := rfl
@[simp] theorem State.setHand_pending (h : Option HostCommand) : (s.setHand h).pending = s.pending := rfl
@[simp] theorem State.setHand_win (h : Option HostCommand) (m : Slot) : (s.setHand h).win m = s.win m := rfl
@[simp] theorem State.setHand_expired (h : Option HostCommand) (m : Slot) : (s.setHand h).expired m = s.expired m := rfl
@[simp] theorem State.setHand_use (h : Option HostCommand) (m : Slot) : (s.setHand h).use m = s.use m := rfl
@[simp] theorem State.setHand_ticket (h : Option HostCommand) (j : TicketNo) : (s.setHand h).ticket j = s.ticket j := rfl
@[simp] theorem State.setHand_profile (h : Option HostCommand) (q : Requester) : (s.setHand h).profile q = s.profile q := rfl
@[simp] theorem State.setHand_violation (h : Option HostCommand) (q : Requester) : (s.setHand h).violation q = s.violation q := rfl

/-! ### raiseProtocol -/

@[simp] theorem State.raiseProtocol_table (k : ProtocolKind) : (s.raiseProtocol k).table = s.table := rfl
@[simp] theorem State.raiseProtocol_arbiter (k : ProtocolKind) : (s.raiseProtocol k).arbiter = s.arbiter := rfl
@[simp] theorem State.raiseProtocol_lookup (k : ProtocolKind) : (s.raiseProtocol k).lookup = s.lookup := rfl
@[simp] theorem State.raiseProtocol_pool (k : ProtocolKind) : (s.raiseProtocol k).pool = s.pool := rfl
@[simp] theorem State.raiseProtocol_timer (k : ProtocolKind) : (s.raiseProtocol k).timer = s.timer := rfl
@[simp] theorem State.raiseProtocol_sweep (k : ProtocolKind) : (s.raiseProtocol k).sweep = s.sweep := rfl
@[simp] theorem State.raiseProtocol_profiles (k : ProtocolKind) : (s.raiseProtocol k).profiles = s.profiles := rfl
@[simp] theorem State.raiseProtocol_violations (k : ProtocolKind) : (s.raiseProtocol k).violations = s.violations := rfl
@[simp] theorem State.raiseProtocol_host (k : ProtocolKind) : (s.raiseProtocol k).host = { s.host with protocolEvent := true, protocolStatus := some (s.host.protocolStatus.getD k) } := rfl
@[simp] theorem State.raiseProtocol_hostHand (k : ProtocolKind) : (s.raiseProtocol k).hostHand = s.hostHand := rfl
@[simp] theorem State.raiseProtocol_maint (k : ProtocolKind) : (s.raiseProtocol k).maint = s.maint := rfl
@[simp] theorem State.raiseProtocol_pornLow (k : ProtocolKind) : (s.raiseProtocol k).pornLow = s.pornLow := rfl
@[simp] theorem State.raiseProtocol_frst (k : ProtocolKind) : (s.raiseProtocol k).frst = s.frst := rfl
@[simp] theorem State.raiseProtocol_freeReads (k : ProtocolKind) : (s.raiseProtocol k).freeReads = s.freeReads := rfl
@[simp] theorem State.raiseProtocol_pending (k : ProtocolKind) : (s.raiseProtocol k).pending = s.pending := rfl
@[simp] theorem State.raiseProtocol_win (k : ProtocolKind) (m : Slot) : (s.raiseProtocol k).win m = s.win m := rfl
@[simp] theorem State.raiseProtocol_expired (k : ProtocolKind) (m : Slot) : (s.raiseProtocol k).expired m = s.expired m := rfl
@[simp] theorem State.raiseProtocol_use (k : ProtocolKind) (m : Slot) : (s.raiseProtocol k).use m = s.use m := rfl
@[simp] theorem State.raiseProtocol_ticket (k : ProtocolKind) (j : TicketNo) : (s.raiseProtocol k).ticket j = s.ticket j := rfl
@[simp] theorem State.raiseProtocol_profile (k : ProtocolKind) (q : Requester) : (s.raiseProtocol k).profile q = s.profile q := rfl
@[simp] theorem State.raiseProtocol_violation (k : ProtocolKind) (q : Requester) : (s.raiseProtocol k).violation q = s.violation q := rfl

/-! ### raiseDrainForced -/

@[simp] theorem State.raiseDrainForced_table : (s.raiseDrainForced).table = s.table := rfl
@[simp] theorem State.raiseDrainForced_arbiter : (s.raiseDrainForced).arbiter = s.arbiter := rfl
@[simp] theorem State.raiseDrainForced_lookup : (s.raiseDrainForced).lookup = s.lookup := rfl
@[simp] theorem State.raiseDrainForced_pool : (s.raiseDrainForced).pool = s.pool := rfl
@[simp] theorem State.raiseDrainForced_timer : (s.raiseDrainForced).timer = s.timer := rfl
@[simp] theorem State.raiseDrainForced_sweep : (s.raiseDrainForced).sweep = s.sweep := rfl
@[simp] theorem State.raiseDrainForced_profiles : (s.raiseDrainForced).profiles = s.profiles := rfl
@[simp] theorem State.raiseDrainForced_violations : (s.raiseDrainForced).violations = s.violations := rfl
@[simp] theorem State.raiseDrainForced_host : (s.raiseDrainForced).host = { s.host with drainForced := true } := rfl
@[simp] theorem State.raiseDrainForced_hostHand : (s.raiseDrainForced).hostHand = s.hostHand := rfl
@[simp] theorem State.raiseDrainForced_maint : (s.raiseDrainForced).maint = s.maint := rfl
@[simp] theorem State.raiseDrainForced_pornLow : (s.raiseDrainForced).pornLow = s.pornLow := rfl
@[simp] theorem State.raiseDrainForced_frst : (s.raiseDrainForced).frst = s.frst := rfl
@[simp] theorem State.raiseDrainForced_freeReads : (s.raiseDrainForced).freeReads = s.freeReads := rfl
@[simp] theorem State.raiseDrainForced_pending : (s.raiseDrainForced).pending = s.pending := rfl
@[simp] theorem State.raiseDrainForced_win (m : Slot) : (s.raiseDrainForced).win m = s.win m := rfl
@[simp] theorem State.raiseDrainForced_expired (m : Slot) : (s.raiseDrainForced).expired m = s.expired m := rfl
@[simp] theorem State.raiseDrainForced_use (m : Slot) : (s.raiseDrainForced).use m = s.use m := rfl
@[simp] theorem State.raiseDrainForced_ticket (j : TicketNo) : (s.raiseDrainForced).ticket j = s.ticket j := rfl
@[simp] theorem State.raiseDrainForced_profile (q : Requester) : (s.raiseDrainForced).profile q = s.profile q := rfl
@[simp] theorem State.raiseDrainForced_violation (q : Requester) : (s.raiseDrainForced).violation q = s.violation q := rfl

/-! ### raiseOwnership -/

@[simp] theorem State.raiseOwnership_table : (s.raiseOwnership).table = s.table := rfl
@[simp] theorem State.raiseOwnership_arbiter : (s.raiseOwnership).arbiter = s.arbiter := rfl
@[simp] theorem State.raiseOwnership_lookup : (s.raiseOwnership).lookup = s.lookup := rfl
@[simp] theorem State.raiseOwnership_pool : (s.raiseOwnership).pool = s.pool := rfl
@[simp] theorem State.raiseOwnership_timer : (s.raiseOwnership).timer = s.timer := rfl
@[simp] theorem State.raiseOwnership_sweep : (s.raiseOwnership).sweep = s.sweep := rfl
@[simp] theorem State.raiseOwnership_profiles : (s.raiseOwnership).profiles = s.profiles := rfl
@[simp] theorem State.raiseOwnership_violations : (s.raiseOwnership).violations = s.violations := rfl
@[simp] theorem State.raiseOwnership_host : (s.raiseOwnership).host = { s.host with ownership := true } := rfl
@[simp] theorem State.raiseOwnership_hostHand : (s.raiseOwnership).hostHand = s.hostHand := rfl
@[simp] theorem State.raiseOwnership_maint : (s.raiseOwnership).maint = s.maint := rfl
@[simp] theorem State.raiseOwnership_pornLow : (s.raiseOwnership).pornLow = s.pornLow := rfl
@[simp] theorem State.raiseOwnership_frst : (s.raiseOwnership).frst = s.frst := rfl
@[simp] theorem State.raiseOwnership_freeReads : (s.raiseOwnership).freeReads = s.freeReads := rfl
@[simp] theorem State.raiseOwnership_pending : (s.raiseOwnership).pending = s.pending := rfl
@[simp] theorem State.raiseOwnership_win (m : Slot) : (s.raiseOwnership).win m = s.win m := rfl
@[simp] theorem State.raiseOwnership_expired (m : Slot) : (s.raiseOwnership).expired m = s.expired m := rfl
@[simp] theorem State.raiseOwnership_use (m : Slot) : (s.raiseOwnership).use m = s.use m := rfl
@[simp] theorem State.raiseOwnership_ticket (j : TicketNo) : (s.raiseOwnership).ticket j = s.ticket j := rfl
@[simp] theorem State.raiseOwnership_profile (q : Requester) : (s.raiseOwnership).profile q = s.profile q := rfl
@[simp] theorem State.raiseOwnership_violation (q : Requester) : (s.raiseOwnership).violation q = s.violation q := rfl

/-! ### placeHost -/

@[simp] theorem State.placeHost_table (r : Response) : (s.place .host r).table = s.table := rfl
@[simp] theorem State.placeHost_arbiter (r : Response) : (s.place .host r).arbiter = s.arbiter := rfl
@[simp] theorem State.placeHost_lookup (r : Response) : (s.place .host r).lookup = s.lookup := rfl
@[simp] theorem State.placeHost_pool (r : Response) : (s.place .host r).pool = s.pool := rfl
@[simp] theorem State.placeHost_timer (r : Response) : (s.place .host r).timer = s.timer := rfl
@[simp] theorem State.placeHost_sweep (r : Response) : (s.place .host r).sweep = s.sweep := rfl
@[simp] theorem State.placeHost_profiles (r : Response) : (s.place .host r).profiles = s.profiles := rfl
@[simp] theorem State.placeHost_violations (r : Response) : (s.place .host r).violations = s.violations := rfl
@[simp] theorem State.placeHost_host (r : Response) : (s.place .host r).host = { s.host with responses := s.host.responses ++ [r] } := rfl
@[simp] theorem State.placeHost_hostHand (r : Response) : (s.place .host r).hostHand = s.hostHand := rfl
@[simp] theorem State.placeHost_maint (r : Response) : (s.place .host r).maint = s.maint := rfl
@[simp] theorem State.placeHost_pornLow (r : Response) : (s.place .host r).pornLow = s.pornLow := rfl
@[simp] theorem State.placeHost_frst (r : Response) : (s.place .host r).frst = s.frst := rfl
@[simp] theorem State.placeHost_freeReads (r : Response) : (s.place .host r).freeReads = s.freeReads := rfl
@[simp] theorem State.placeHost_pending (r : Response) : (s.place .host r).pending = s.pending := rfl
@[simp] theorem State.placeHost_win (r : Response) (m : Slot) : (s.place .host r).win m = s.win m := rfl
@[simp] theorem State.placeHost_expired (r : Response) (m : Slot) : (s.place .host r).expired m = s.expired m := rfl
@[simp] theorem State.placeHost_use (r : Response) (m : Slot) : (s.place .host r).use m = s.use m := rfl
@[simp] theorem State.placeHost_ticket (r : Response) (j : TicketNo) : (s.place .host r).ticket j = s.ticket j := rfl
@[simp] theorem State.placeHost_profile (r : Response) (q : Requester) : (s.place .host r).profile q = s.profile q := rfl
@[simp] theorem State.placeHost_violation (r : Response) (q : Requester) : (s.place .host r).violation q = s.violation q := rfl

/-! ### placeMaint -/

@[simp] theorem State.placeMaint_table (r : Response) : (s.place .maint r).table = s.table := rfl
@[simp] theorem State.placeMaint_arbiter (r : Response) : (s.place .maint r).arbiter = s.arbiter := rfl
@[simp] theorem State.placeMaint_lookup (r : Response) : (s.place .maint r).lookup = s.lookup := rfl
@[simp] theorem State.placeMaint_pool (r : Response) : (s.place .maint r).pool = s.pool := rfl
@[simp] theorem State.placeMaint_timer (r : Response) : (s.place .maint r).timer = s.timer := rfl
@[simp] theorem State.placeMaint_sweep (r : Response) : (s.place .maint r).sweep = s.sweep := rfl
@[simp] theorem State.placeMaint_profiles (r : Response) : (s.place .maint r).profiles = s.profiles := rfl
@[simp] theorem State.placeMaint_violations (r : Response) : (s.place .maint r).violations = s.violations := rfl
@[simp] theorem State.placeMaint_host (r : Response) : (s.place .maint r).host = s.host := rfl
@[simp] theorem State.placeMaint_hostHand (r : Response) : (s.place .maint r).hostHand = s.hostHand := rfl
@[simp] theorem State.placeMaint_maint (r : Response) : (s.place .maint r).maint = { s.maint with response := some r } := rfl
@[simp] theorem State.placeMaint_pornLow (r : Response) : (s.place .maint r).pornLow = s.pornLow := rfl
@[simp] theorem State.placeMaint_frst (r : Response) : (s.place .maint r).frst = s.frst := rfl
@[simp] theorem State.placeMaint_freeReads (r : Response) : (s.place .maint r).freeReads = s.freeReads := rfl
@[simp] theorem State.placeMaint_pending (r : Response) : (s.place .maint r).pending = s.pending := rfl
@[simp] theorem State.placeMaint_win (r : Response) (m : Slot) : (s.place .maint r).win m = s.win m := rfl
@[simp] theorem State.placeMaint_expired (r : Response) (m : Slot) : (s.place .maint r).expired m = s.expired m := rfl
@[simp] theorem State.placeMaint_use (r : Response) (m : Slot) : (s.place .maint r).use m = s.use m := rfl
@[simp] theorem State.placeMaint_ticket (r : Response) (j : TicketNo) : (s.place .maint r).ticket j = s.ticket j := rfl
@[simp] theorem State.placeMaint_profile (r : Response) (q : Requester) : (s.place .maint r).profile q = s.profile q := rfl
@[simp] theorem State.placeMaint_violation (r : Response) (q : Requester) : (s.place .maint r).violation q = s.violation q := rfl

/-! ### dropHead -/

@[simp] theorem State.dropHead_table : (s.dropHead).table = s.table := rfl
@[simp] theorem State.dropHead_arbiter : (s.dropHead).arbiter = s.arbiter := rfl
@[simp] theorem State.dropHead_lookup : (s.dropHead).lookup = s.lookup := rfl
@[simp] theorem State.dropHead_pool : (s.dropHead).pool = s.pool := rfl
@[simp] theorem State.dropHead_timer : (s.dropHead).timer = s.timer := rfl
@[simp] theorem State.dropHead_sweep : (s.dropHead).sweep = s.sweep := rfl
@[simp] theorem State.dropHead_profiles : (s.dropHead).profiles = s.profiles := rfl
@[simp] theorem State.dropHead_violations : (s.dropHead).violations = s.violations := rfl
@[simp] theorem State.dropHead_host : (s.dropHead).host = { s.host with commands := s.host.commands.tail } := rfl
@[simp] theorem State.dropHead_hostHand : (s.dropHead).hostHand = s.hostHand := rfl
@[simp] theorem State.dropHead_maint : (s.dropHead).maint = s.maint := rfl
@[simp] theorem State.dropHead_pornLow : (s.dropHead).pornLow = s.pornLow := rfl
@[simp] theorem State.dropHead_frst : (s.dropHead).frst = s.frst := rfl
@[simp] theorem State.dropHead_freeReads : (s.dropHead).freeReads = s.freeReads := rfl
@[simp] theorem State.dropHead_pending : (s.dropHead).pending = s.pending := rfl
@[simp] theorem State.dropHead_win (m : Slot) : (s.dropHead).win m = s.win m := rfl
@[simp] theorem State.dropHead_expired (m : Slot) : (s.dropHead).expired m = s.expired m := rfl
@[simp] theorem State.dropHead_use (m : Slot) : (s.dropHead).use m = s.use m := rfl
@[simp] theorem State.dropHead_ticket (j : TicketNo) : (s.dropHead).ticket j = s.ticket j := rfl
@[simp] theorem State.dropHead_profile (q : Requester) : (s.dropHead).profile q = s.profile q := rfl
@[simp] theorem State.dropHead_violation (q : Requester) : (s.dropHead).violation q = s.violation q := rfl

/-! ### grantTo -/

@[simp] theorem State.grantTo_table (c : Claimant) : (s.grantTo c).table = s.table := rfl
@[simp] theorem State.grantTo_arbiter (c : Claimant) : (s.grantTo c).arbiter = { holder := some c, hostWait := s.hostWaitAtGrant c } := rfl
@[simp] theorem State.grantTo_lookup (c : Claimant) : (s.grantTo c).lookup = s.lookup := rfl
@[simp] theorem State.grantTo_pool (c : Claimant) : (s.grantTo c).pool = s.pool := rfl
@[simp] theorem State.grantTo_timer (c : Claimant) : (s.grantTo c).timer = s.timer := rfl
@[simp] theorem State.grantTo_sweep (c : Claimant) : (s.grantTo c).sweep = { s.sweep with yields := false } := rfl
@[simp] theorem State.grantTo_profiles (c : Claimant) : (s.grantTo c).profiles = s.profiles := rfl
@[simp] theorem State.grantTo_violations (c : Claimant) : (s.grantTo c).violations = s.violations := rfl
@[simp] theorem State.grantTo_host (c : Claimant) : (s.grantTo c).host = s.host := rfl
@[simp] theorem State.grantTo_hostHand (c : Claimant) : (s.grantTo c).hostHand = s.hostHand := rfl
@[simp] theorem State.grantTo_maint (c : Claimant) : (s.grantTo c).maint = s.maint := rfl
@[simp] theorem State.grantTo_pornLow (c : Claimant) : (s.grantTo c).pornLow = s.pornLow := rfl
@[simp] theorem State.grantTo_frst (c : Claimant) : (s.grantTo c).frst = s.frst := rfl
@[simp] theorem State.grantTo_freeReads (c : Claimant) : (s.grantTo c).freeReads = s.freeReads := rfl
@[simp] theorem State.grantTo_pending (c : Claimant) : (s.grantTo c).pending = s.pending := rfl
@[simp] theorem State.grantTo_win (c : Claimant) (m : Slot) : (s.grantTo c).win m = s.win m := rfl
@[simp] theorem State.grantTo_expired (c : Claimant) (m : Slot) : (s.grantTo c).expired m = s.expired m := rfl
@[simp] theorem State.grantTo_use (c : Claimant) (m : Slot) : (s.grantTo c).use m = s.use m := rfl
@[simp] theorem State.grantTo_ticket (c : Claimant) (j : TicketNo) : (s.grantTo c).ticket j = s.ticket j := rfl
@[simp] theorem State.grantTo_profile (c : Claimant) (q : Requester) : (s.grantTo c).profile q = s.profile q := rfl
@[simp] theorem State.grantTo_violation (c : Claimant) (q : Requester) : (s.grantTo c).violation q = s.violation q := rfl

/-! ### release -/

@[simp] theorem State.release_table : (s.release).table = s.table := rfl
@[simp] theorem State.release_arbiter : (s.release).arbiter = { s.arbiter with holder := none } := rfl
@[simp] theorem State.release_lookup : (s.release).lookup = s.lookup := rfl
@[simp] theorem State.release_pool : (s.release).pool = s.pool := rfl
@[simp] theorem State.release_timer : (s.release).timer = s.timer := rfl
@[simp] theorem State.release_sweep : (s.release).sweep = s.sweep := rfl
@[simp] theorem State.release_profiles : (s.release).profiles = s.profiles := rfl
@[simp] theorem State.release_violations : (s.release).violations = s.violations := rfl
@[simp] theorem State.release_host : (s.release).host = s.host := rfl
@[simp] theorem State.release_hostHand : (s.release).hostHand = s.hostHand := rfl
@[simp] theorem State.release_maint : (s.release).maint = s.maint := rfl
@[simp] theorem State.release_pornLow : (s.release).pornLow = s.pornLow := rfl
@[simp] theorem State.release_frst : (s.release).frst = s.frst := rfl
@[simp] theorem State.release_freeReads : (s.release).freeReads = s.freeReads := rfl
@[simp] theorem State.release_pending : (s.release).pending = s.pending := rfl
@[simp] theorem State.release_win (m : Slot) : (s.release).win m = s.win m := rfl
@[simp] theorem State.release_expired (m : Slot) : (s.release).expired m = s.expired m := rfl
@[simp] theorem State.release_use (m : Slot) : (s.release).use m = s.use m := rfl
@[simp] theorem State.release_ticket (j : TicketNo) : (s.release).ticket j = s.ticket j := rfl
@[simp] theorem State.release_profile (q : Requester) : (s.release).profile q = s.profile q := rfl
@[simp] theorem State.release_violation (q : Requester) : (s.release).violation q = s.violation q := rfl

/-! ### settleYield -/

@[simp] theorem State.settleYield_table : (s.settleYield).table = s.table := rfl
@[simp] theorem State.settleYield_arbiter : (s.settleYield).arbiter = s.arbiter := rfl
@[simp] theorem State.settleYield_lookup : (s.settleYield).lookup = s.lookup := rfl
@[simp] theorem State.settleYield_pool : (s.settleYield).pool = s.pool := rfl
@[simp] theorem State.settleYield_timer : (s.settleYield).timer = s.timer := rfl
@[simp] theorem State.settleYield_sweep : (s.settleYield).sweep = { s.sweep with yields := s.sweep.yields && s.othersClaim } := rfl
@[simp] theorem State.settleYield_profiles : (s.settleYield).profiles = s.profiles := rfl
@[simp] theorem State.settleYield_violations : (s.settleYield).violations = s.violations := rfl
@[simp] theorem State.settleYield_host : (s.settleYield).host = s.host := rfl
@[simp] theorem State.settleYield_hostHand : (s.settleYield).hostHand = s.hostHand := rfl
@[simp] theorem State.settleYield_maint : (s.settleYield).maint = s.maint := rfl
@[simp] theorem State.settleYield_pornLow : (s.settleYield).pornLow = s.pornLow := rfl
@[simp] theorem State.settleYield_frst : (s.settleYield).frst = s.frst := rfl
@[simp] theorem State.settleYield_freeReads : (s.settleYield).freeReads = s.freeReads := rfl
@[simp] theorem State.settleYield_pending : (s.settleYield).pending = s.pending := rfl
@[simp] theorem State.settleYield_win (m : Slot) : (s.settleYield).win m = s.win m := rfl
@[simp] theorem State.settleYield_expired (m : Slot) : (s.settleYield).expired m = s.expired m := rfl
@[simp] theorem State.settleYield_use (m : Slot) : (s.settleYield).use m = s.use m := rfl
@[simp] theorem State.settleYield_ticket (j : TicketNo) : (s.settleYield).ticket j = s.ticket j := rfl
@[simp] theorem State.settleYield_profile (q : Requester) : (s.settleYield).profile q = s.profile q := rfl
@[simp] theorem State.settleYield_violation (q : Requester) : (s.settleYield).violation q = s.violation q := rfl

/-! ### orphanTickets -/

@[simp] theorem State.orphanTickets_table (n : Slot) : (s.orphanTickets n).table = s.table := rfl
@[simp] theorem State.orphanTickets_arbiter (n : Slot) : (s.orphanTickets n).arbiter = s.arbiter := rfl
@[simp] theorem State.orphanTickets_lookup (n : Slot) : (s.orphanTickets n).lookup = s.lookup := rfl
@[simp] theorem State.orphanTickets_pool (n : Slot) : (s.orphanTickets n).pool = ⟨s.pool.tickets.map (Ticket.orphanedFrom n), s.pool.useCount.set n.val 0⟩ := rfl
@[simp] theorem State.orphanTickets_timer (n : Slot) : (s.orphanTickets n).timer = s.timer := rfl
@[simp] theorem State.orphanTickets_sweep (n : Slot) : (s.orphanTickets n).sweep = s.sweep := rfl
@[simp] theorem State.orphanTickets_profiles (n : Slot) : (s.orphanTickets n).profiles = s.profiles := rfl
@[simp] theorem State.orphanTickets_violations (n : Slot) : (s.orphanTickets n).violations = s.violations := rfl
@[simp] theorem State.orphanTickets_host (n : Slot) : (s.orphanTickets n).host = s.host := rfl
@[simp] theorem State.orphanTickets_hostHand (n : Slot) : (s.orphanTickets n).hostHand = s.hostHand := rfl
@[simp] theorem State.orphanTickets_maint (n : Slot) : (s.orphanTickets n).maint = s.maint := rfl
@[simp] theorem State.orphanTickets_pornLow (n : Slot) : (s.orphanTickets n).pornLow = s.pornLow := rfl
@[simp] theorem State.orphanTickets_frst (n : Slot) : (s.orphanTickets n).frst = s.frst := rfl
@[simp] theorem State.orphanTickets_freeReads (n : Slot) : (s.orphanTickets n).freeReads = s.freeReads := rfl
@[simp] theorem State.orphanTickets_pending (n : Slot) : (s.orphanTickets n).pending = s.pending := rfl
@[simp] theorem State.orphanTickets_win (n : Slot) (m : Slot) : (s.orphanTickets n).win m = s.win m := rfl
@[simp] theorem State.orphanTickets_expired (n : Slot) (m : Slot) : (s.orphanTickets n).expired m = s.expired m := rfl
@[simp] theorem State.orphanTickets_profile (n : Slot) (q : Requester) : (s.orphanTickets n).profile q = s.profile q := rfl
@[simp] theorem State.orphanTickets_violation (n : Slot) (q : Requester) : (s.orphanTickets n).violation q = s.violation q := rfl

/-! ### allocate -/

@[simp] theorem State.allocate_table (k : TicketNo) (r : Requester) (n : Slot) : (s.allocate k r n).table = s.table := rfl
@[simp] theorem State.allocate_arbiter (k : TicketNo) (r : Requester) (n : Slot) : (s.allocate k r n).arbiter = s.arbiter := rfl
@[simp] theorem State.allocate_lookup (k : TicketNo) (r : Requester) (n : Slot) : (s.allocate k r n).lookup = s.lookup := rfl
@[simp] theorem State.allocate_pool (k : TicketNo) (r : Requester) (n : Slot) : (s.allocate k r n).pool = ⟨s.pool.tickets.set k.val (.counted r n), s.pool.useCount.set n.val (s.use n + 1)⟩ := rfl
@[simp] theorem State.allocate_timer (k : TicketNo) (r : Requester) (n : Slot) : (s.allocate k r n).timer = s.timer := rfl
@[simp] theorem State.allocate_sweep (k : TicketNo) (r : Requester) (n : Slot) : (s.allocate k r n).sweep = s.sweep := rfl
@[simp] theorem State.allocate_profiles (k : TicketNo) (r : Requester) (n : Slot) : (s.allocate k r n).profiles = s.profiles := rfl
@[simp] theorem State.allocate_violations (k : TicketNo) (r : Requester) (n : Slot) : (s.allocate k r n).violations = s.violations := rfl
@[simp] theorem State.allocate_host (k : TicketNo) (r : Requester) (n : Slot) : (s.allocate k r n).host = s.host := rfl
@[simp] theorem State.allocate_hostHand (k : TicketNo) (r : Requester) (n : Slot) : (s.allocate k r n).hostHand = s.hostHand := rfl
@[simp] theorem State.allocate_maint (k : TicketNo) (r : Requester) (n : Slot) : (s.allocate k r n).maint = s.maint := rfl
@[simp] theorem State.allocate_pornLow (k : TicketNo) (r : Requester) (n : Slot) : (s.allocate k r n).pornLow = s.pornLow := rfl
@[simp] theorem State.allocate_frst (k : TicketNo) (r : Requester) (n : Slot) : (s.allocate k r n).frst = s.frst := rfl
@[simp] theorem State.allocate_freeReads (k : TicketNo) (r : Requester) (n : Slot) : (s.allocate k r n).freeReads = s.freeReads := rfl
@[simp] theorem State.allocate_pending (k : TicketNo) (r : Requester) (n : Slot) : (s.allocate k r n).pending = s.pending := rfl
@[simp] theorem State.allocate_win (k : TicketNo) (r : Requester) (n : Slot) (m : Slot) : (s.allocate k r n).win m = s.win m := rfl
@[simp] theorem State.allocate_expired (k : TicketNo) (r : Requester) (n : Slot) (m : Slot) : (s.allocate k r n).expired m = s.expired m := rfl
@[simp] theorem State.allocate_profile (k : TicketNo) (r : Requester) (n : Slot) (q : Requester) : (s.allocate k r n).profile q = s.profile q := rfl
@[simp] theorem State.allocate_violation (k : TicketNo) (r : Requester) (n : Slot) (q : Requester) : (s.allocate k r n).violation q = s.violation q := rfl

/-! ### placeVerdict -/

@[simp] theorem State.placeVerdict_table (e : QueueEntry) (a : Answer) : (s.placeVerdict e a).table = s.table := rfl
@[simp] theorem State.placeVerdict_arbiter (e : QueueEntry) (a : Answer) : (s.placeVerdict e a).arbiter = s.arbiter := rfl
@[simp] theorem State.placeVerdict_lookup (e : QueueEntry) (a : Answer) : (s.placeVerdict e a).lookup = { s.lookup with queue := s.lookup.queue.tail, verdicts := s.lookup.verdicts ++ [⟨e.requester, e.tag, a⟩] } := rfl
@[simp] theorem State.placeVerdict_pool (e : QueueEntry) (a : Answer) : (s.placeVerdict e a).pool = s.pool := rfl
@[simp] theorem State.placeVerdict_timer (e : QueueEntry) (a : Answer) : (s.placeVerdict e a).timer = s.timer := rfl
@[simp] theorem State.placeVerdict_sweep (e : QueueEntry) (a : Answer) : (s.placeVerdict e a).sweep = s.sweep := rfl
@[simp] theorem State.placeVerdict_profiles (e : QueueEntry) (a : Answer) : (s.placeVerdict e a).profiles = s.profiles := rfl
@[simp] theorem State.placeVerdict_violations (e : QueueEntry) (a : Answer) : (s.placeVerdict e a).violations = s.violations := rfl
@[simp] theorem State.placeVerdict_host (e : QueueEntry) (a : Answer) : (s.placeVerdict e a).host = s.host := rfl
@[simp] theorem State.placeVerdict_hostHand (e : QueueEntry) (a : Answer) : (s.placeVerdict e a).hostHand = s.hostHand := rfl
@[simp] theorem State.placeVerdict_maint (e : QueueEntry) (a : Answer) : (s.placeVerdict e a).maint = s.maint := rfl
@[simp] theorem State.placeVerdict_pornLow (e : QueueEntry) (a : Answer) : (s.placeVerdict e a).pornLow = s.pornLow := rfl
@[simp] theorem State.placeVerdict_frst (e : QueueEntry) (a : Answer) : (s.placeVerdict e a).frst = s.frst := rfl
@[simp] theorem State.placeVerdict_freeReads (e : QueueEntry) (a : Answer) : (s.placeVerdict e a).freeReads = s.freeReads := rfl
@[simp] theorem State.placeVerdict_pending (e : QueueEntry) (a : Answer) : (s.placeVerdict e a).pending = s.pending := rfl
@[simp] theorem State.placeVerdict_win (e : QueueEntry) (a : Answer) (m : Slot) : (s.placeVerdict e a).win m = s.win m := rfl
@[simp] theorem State.placeVerdict_expired (e : QueueEntry) (a : Answer) (m : Slot) : (s.placeVerdict e a).expired m = s.expired m := rfl
@[simp] theorem State.placeVerdict_use (e : QueueEntry) (a : Answer) (m : Slot) : (s.placeVerdict e a).use m = s.use m := rfl
@[simp] theorem State.placeVerdict_ticket (e : QueueEntry) (a : Answer) (j : TicketNo) : (s.placeVerdict e a).ticket j = s.ticket j := rfl
@[simp] theorem State.placeVerdict_profile (e : QueueEntry) (a : Answer) (q : Requester) : (s.placeVerdict e a).profile q = s.profile q := rfl
@[simp] theorem State.placeVerdict_violation (e : QueueEntry) (a : Answer) (q : Requester) : (s.placeVerdict e a).violation q = s.violation q := rfl

/-! ### setAssembler -/

@[simp] theorem State.setAssembler_table (a : Assembler) : (s.setAssembler a).table = s.table := rfl
@[simp] theorem State.setAssembler_arbiter (a : Assembler) : (s.setAssembler a).arbiter = s.arbiter := rfl
@[simp] theorem State.setAssembler_lookup (a : Assembler) : (s.setAssembler a).lookup = s.lookup := rfl
@[simp] theorem State.setAssembler_pool (a : Assembler) : (s.setAssembler a).pool = s.pool := rfl
@[simp] theorem State.setAssembler_timer (a : Assembler) : (s.setAssembler a).timer = s.timer := rfl
@[simp] theorem State.setAssembler_sweep (a : Assembler) : (s.setAssembler a).sweep = s.sweep := rfl
@[simp] theorem State.setAssembler_profiles (a : Assembler) : (s.setAssembler a).profiles = s.profiles := rfl
@[simp] theorem State.setAssembler_violations (a : Assembler) : (s.setAssembler a).violations = s.violations := rfl
@[simp] theorem State.setAssembler_host (a : Assembler) : (s.setAssembler a).host = { s.host with assembler := a } := rfl
@[simp] theorem State.setAssembler_hostHand (a : Assembler) : (s.setAssembler a).hostHand = s.hostHand := rfl
@[simp] theorem State.setAssembler_maint (a : Assembler) : (s.setAssembler a).maint = s.maint := rfl
@[simp] theorem State.setAssembler_pornLow (a : Assembler) : (s.setAssembler a).pornLow = s.pornLow := rfl
@[simp] theorem State.setAssembler_frst (a : Assembler) : (s.setAssembler a).frst = s.frst := rfl
@[simp] theorem State.setAssembler_freeReads (a : Assembler) : (s.setAssembler a).freeReads = s.freeReads := rfl
@[simp] theorem State.setAssembler_pending (a : Assembler) : (s.setAssembler a).pending = s.pending := rfl
@[simp] theorem State.setAssembler_win (a : Assembler) (m : Slot) : (s.setAssembler a).win m = s.win m := rfl
@[simp] theorem State.setAssembler_expired (a : Assembler) (m : Slot) : (s.setAssembler a).expired m = s.expired m := rfl
@[simp] theorem State.setAssembler_use (a : Assembler) (m : Slot) : (s.setAssembler a).use m = s.use m := rfl
@[simp] theorem State.setAssembler_ticket (a : Assembler) (j : TicketNo) : (s.setAssembler a).ticket j = s.ticket j := rfl
@[simp] theorem State.setAssembler_profile (a : Assembler) (q : Requester) : (s.setAssembler a).profile q = s.profile q := rfl
@[simp] theorem State.setAssembler_violation (a : Assembler) (q : Requester) : (s.setAssembler a).violation q = s.violation q := rfl

/-! ### enqueueCommand -/

@[simp] theorem State.enqueueCommand_table (c : Command) (p : Privilege) : (s.enqueueCommand c p).table = s.table := rfl
@[simp] theorem State.enqueueCommand_arbiter (c : Command) (p : Privilege) : (s.enqueueCommand c p).arbiter = s.arbiter := rfl
@[simp] theorem State.enqueueCommand_lookup (c : Command) (p : Privilege) : (s.enqueueCommand c p).lookup = s.lookup := rfl
@[simp] theorem State.enqueueCommand_pool (c : Command) (p : Privilege) : (s.enqueueCommand c p).pool = s.pool := rfl
@[simp] theorem State.enqueueCommand_timer (c : Command) (p : Privilege) : (s.enqueueCommand c p).timer = s.timer := rfl
@[simp] theorem State.enqueueCommand_sweep (c : Command) (p : Privilege) : (s.enqueueCommand c p).sweep = s.sweep := rfl
@[simp] theorem State.enqueueCommand_profiles (c : Command) (p : Privilege) : (s.enqueueCommand c p).profiles = s.profiles := rfl
@[simp] theorem State.enqueueCommand_violations (c : Command) (p : Privilege) : (s.enqueueCommand c p).violations = s.violations := rfl
@[simp] theorem State.enqueueCommand_host (c : Command) (p : Privilege) : (s.enqueueCommand c p).host = { s.host with assembler := .idle, commands := s.host.commands ++ [⟨c, p⟩] } := rfl
@[simp] theorem State.enqueueCommand_hostHand (c : Command) (p : Privilege) : (s.enqueueCommand c p).hostHand = s.hostHand := rfl
@[simp] theorem State.enqueueCommand_maint (c : Command) (p : Privilege) : (s.enqueueCommand c p).maint = s.maint := rfl
@[simp] theorem State.enqueueCommand_pornLow (c : Command) (p : Privilege) : (s.enqueueCommand c p).pornLow = s.pornLow := rfl
@[simp] theorem State.enqueueCommand_frst (c : Command) (p : Privilege) : (s.enqueueCommand c p).frst = s.frst := rfl
@[simp] theorem State.enqueueCommand_freeReads (c : Command) (p : Privilege) : (s.enqueueCommand c p).freeReads = s.freeReads := rfl
@[simp] theorem State.enqueueCommand_pending (c : Command) (p : Privilege) : (s.enqueueCommand c p).pending = s.pending := rfl
@[simp] theorem State.enqueueCommand_win (c : Command) (p : Privilege) (m : Slot) : (s.enqueueCommand c p).win m = s.win m := rfl
@[simp] theorem State.enqueueCommand_expired (c : Command) (p : Privilege) (m : Slot) : (s.enqueueCommand c p).expired m = s.expired m := rfl
@[simp] theorem State.enqueueCommand_use (c : Command) (p : Privilege) (m : Slot) : (s.enqueueCommand c p).use m = s.use m := rfl
@[simp] theorem State.enqueueCommand_ticket (c : Command) (p : Privilege) (j : TicketNo) : (s.enqueueCommand c p).ticket j = s.ticket j := rfl
@[simp] theorem State.enqueueCommand_profile (c : Command) (p : Privilege) (q : Requester) : (s.enqueueCommand c p).profile q = s.profile q := rfl
@[simp] theorem State.enqueueCommand_violation (c : Command) (p : Privilege) (q : Requester) : (s.enqueueCommand c p).violation q = s.violation q := rfl

/-! ### writeEnables -/

@[simp] theorem State.writeEnables_table (w : Word) : (s.writeEnables w).table = s.table := rfl
@[simp] theorem State.writeEnables_arbiter (w : Word) : (s.writeEnables w).arbiter = s.arbiter := rfl
@[simp] theorem State.writeEnables_lookup (w : Word) : (s.writeEnables w).lookup = s.lookup := rfl
@[simp] theorem State.writeEnables_pool (w : Word) : (s.writeEnables w).pool = s.pool := rfl
@[simp] theorem State.writeEnables_timer (w : Word) : (s.writeEnables w).timer = s.timer := rfl
@[simp] theorem State.writeEnables_sweep (w : Word) : (s.writeEnables w).sweep = s.sweep := rfl
@[simp] theorem State.writeEnables_profiles (w : Word) : (s.writeEnables w).profiles = s.profiles := rfl
@[simp] theorem State.writeEnables_violations (w : Word) : (s.writeEnables w).violations = s.violations := rfl
@[simp] theorem State.writeEnables_host (w : Word) : (s.writeEnables w).host = { s.host with enables := w.extractLsb' 0 6 } := rfl
@[simp] theorem State.writeEnables_hostHand (w : Word) : (s.writeEnables w).hostHand = s.hostHand := rfl
@[simp] theorem State.writeEnables_maint (w : Word) : (s.writeEnables w).maint = s.maint := rfl
@[simp] theorem State.writeEnables_pornLow (w : Word) : (s.writeEnables w).pornLow = s.pornLow := rfl
@[simp] theorem State.writeEnables_frst (w : Word) : (s.writeEnables w).frst = s.frst := rfl
@[simp] theorem State.writeEnables_freeReads (w : Word) : (s.writeEnables w).freeReads = s.freeReads := rfl
@[simp] theorem State.writeEnables_pending (w : Word) : (s.writeEnables w).pending = s.pending := rfl
@[simp] theorem State.writeEnables_win (w : Word) (m : Slot) : (s.writeEnables w).win m = s.win m := rfl
@[simp] theorem State.writeEnables_expired (w : Word) (m : Slot) : (s.writeEnables w).expired m = s.expired m := rfl
@[simp] theorem State.writeEnables_use (w : Word) (m : Slot) : (s.writeEnables w).use m = s.use m := rfl
@[simp] theorem State.writeEnables_ticket (w : Word) (j : TicketNo) : (s.writeEnables w).ticket j = s.ticket j := rfl
@[simp] theorem State.writeEnables_profile (w : Word) (q : Requester) : (s.writeEnables w).profile q = s.profile q := rfl
@[simp] theorem State.writeEnables_violation (w : Word) (q : Requester) : (s.writeEnables w).violation q = s.violation q := rfl

/-! ### putReadData -/

@[simp] theorem State.putReadData_table (w : Word) : (s.putReadData w).table = s.table := rfl
@[simp] theorem State.putReadData_arbiter (w : Word) : (s.putReadData w).arbiter = s.arbiter := rfl
@[simp] theorem State.putReadData_lookup (w : Word) : (s.putReadData w).lookup = s.lookup := rfl
@[simp] theorem State.putReadData_pool (w : Word) : (s.putReadData w).pool = s.pool := rfl
@[simp] theorem State.putReadData_timer (w : Word) : (s.putReadData w).timer = s.timer := rfl
@[simp] theorem State.putReadData_sweep (w : Word) : (s.putReadData w).sweep = s.sweep := rfl
@[simp] theorem State.putReadData_profiles (w : Word) : (s.putReadData w).profiles = s.profiles := rfl
@[simp] theorem State.putReadData_violations (w : Word) : (s.putReadData w).violations = s.violations := rfl
@[simp] theorem State.putReadData_host (w : Word) : (s.putReadData w).host = { s.host with readData := w } := rfl
@[simp] theorem State.putReadData_hostHand (w : Word) : (s.putReadData w).hostHand = s.hostHand := rfl
@[simp] theorem State.putReadData_maint (w : Word) : (s.putReadData w).maint = s.maint := rfl
@[simp] theorem State.putReadData_pornLow (w : Word) : (s.putReadData w).pornLow = s.pornLow := rfl
@[simp] theorem State.putReadData_frst (w : Word) : (s.putReadData w).frst = s.frst := rfl
@[simp] theorem State.putReadData_freeReads (w : Word) : (s.putReadData w).freeReads = s.freeReads := rfl
@[simp] theorem State.putReadData_pending (w : Word) : (s.putReadData w).pending = s.pending := rfl
@[simp] theorem State.putReadData_win (w : Word) (m : Slot) : (s.putReadData w).win m = s.win m := rfl
@[simp] theorem State.putReadData_expired (w : Word) (m : Slot) : (s.putReadData w).expired m = s.expired m := rfl
@[simp] theorem State.putReadData_use (w : Word) (m : Slot) : (s.putReadData w).use m = s.use m := rfl
@[simp] theorem State.putReadData_ticket (w : Word) (j : TicketNo) : (s.putReadData w).ticket j = s.ticket j := rfl
@[simp] theorem State.putReadData_profile (w : Word) (q : Requester) : (s.putReadData w).profile q = s.profile q := rfl
@[simp] theorem State.putReadData_violation (w : Word) (q : Requester) : (s.putReadData w).violation q = s.violation q := rfl

/-! ### Reads of the element that an update writes -/

@[simp] theorem State.setWindows_win (v : Vector Window 64) (m : Slot) : (s.setWindows v).win m = v[m.val] := rfl

@[simp] theorem State.setWin_win (n : Slot) (w : Window) (m : Slot) :
    (s.setWin n w).win m = if m = n then w else s.win m := by
  simp only [State.win, State.setWin_table, Vector.getElem_set, Fin.ext_iff, eq_comm]

@[simp] theorem State.mapWindows_win (f : Slot → Window → Window) (m : Slot) :
    (s.mapWindows f).win m = f m (s.win m) := by
  simp [State.win, State.mapWindows]

@[simp] theorem State.setExpired_expired (n : Slot) (b : Bool) (m : Slot) :
    (s.setExpired n b).expired m = if m = n then b else s.expired m := by
  simp only [State.expired, State.setExpired_table, Vector.getElem_set, Fin.ext_iff, eq_comm]

@[simp] theorem State.setTicket_ticket (k : TicketNo) (x : Ticket) (j : TicketNo) :
    (s.setTicket k x).ticket j = if j = k then x else s.ticket j := by
  simp only [State.ticket, State.setTicket_pool, Vector.getElem_set, Fin.ext_iff, eq_comm]

@[simp] theorem State.setUse_use (n : Slot) (x : Nat) (m : Slot) :
    (s.setUse n x).use m = if m = n then x else s.use m := by
  simp only [State.use, State.setUse_pool, Vector.getElem_set, Fin.ext_iff, eq_comm]

@[simp] theorem State.setProfile_profile (r : Requester) (p : Profile) (q : Requester) :
    (s.setProfile r p).profile q = if q = r then p else s.profile q := by
  simp only [State.profile, State.setProfile_profiles, Vector.getElem_set, Fin.ext_iff, eq_comm]

@[simp] theorem State.setViolation_violation (r : Requester) (v : Option Violation) (q : Requester) :
    (s.setViolation r v).violation q = if q = r then v else s.violation q := by
  simp only [State.violation, State.setViolation_violations, Vector.getElem_set, Fin.ext_iff, eq_comm]

@[simp] theorem State.orphanTickets_ticket (n : Slot) (j : TicketNo) :
    (s.orphanTickets n).ticket j = (s.ticket j).orphanedFrom n := by
  simp [State.ticket]

@[simp] theorem State.orphanTickets_use (n m : Slot) :
    (s.orphanTickets n).use m = if m = n then 0 else s.use m := by
  simp only [State.orphanTickets, State.setUse_use]; rfl

@[simp] theorem State.allocate_ticket (k : TicketNo) (r : Requester) (n : Slot) (j : TicketNo) :
    (s.allocate k r n).ticket j = if j = k then .counted r n else s.ticket j := by
  simp [State.allocate]

@[simp] theorem State.allocate_use (k : TicketNo) (r : Requester) (n m : Slot) :
    (s.allocate k r n).use m = if m = n then s.use n + 1 else s.use m := by
  simp [State.allocate]

end Sys2Proof.Machine
end

