-- ==== Sys2Proof/Laws/Ops.lean ====
section
/-! SUPPORT. For each shared operation, what it can do, said once: what it leaves alone, and when and how it changes
the rest. -/

namespace Sys2Proof.Machine

variable (s : State)

/-! ### whilePowered -/

theorem State.whilePowered_powered (after : State) (h : s.pornLow = false) : s.whilePowered after = after := by
  simp [State.whilePowered, h]

theorem State.whilePowered_low (after : State) (h : s.pornLow = true) : s.whilePowered after = s := by
  simp [State.whilePowered, h]

/-! ### takeInHand -/

/-- The engine takes nothing, or it takes the head of the queue, which passes both checks. -/
theorem State.takeInHand_cases :
    s.takeInHand = s ∨ ∃ c rest, s.host.commands = c :: rest ∧ c.passes = true ∧ s.mayTake = true ∧
      s.takeInHand = { s with hostHand := some c, host := { s.host with commands := rest } } := by
  unfold State.takeInHand
  split
  · exact .inl rfl
  · rename_i c rest hc
    split
    · exact .inl rfl
    · rename_i sym hs
      split
      · rename_i h
        simp only [Bool.and_eq_true, Bool.not_eq_true'] at h
        exact .inr ⟨c, rest, hc, by simp [HostCommand.passes, hs, h.1.2, h.2], h.1.1, rfl⟩
      · exact .inl rfl

@[simp] theorem State.takeInHand_table : s.takeInHand.table = s.table := by
  obtain h | ⟨c, rest, -, -, -, h⟩ := s.takeInHand_cases <;> rw [h]

@[simp] theorem State.takeInHand_arbiter : s.takeInHand.arbiter = s.arbiter := by
  obtain h | ⟨c, rest, -, -, -, h⟩ := s.takeInHand_cases <;> rw [h]

@[simp] theorem State.takeInHand_lookup : s.takeInHand.lookup = s.lookup := by
  obtain h | ⟨c, rest, -, -, -, h⟩ := s.takeInHand_cases <;> rw [h]

@[simp] theorem State.takeInHand_pool : s.takeInHand.pool = s.pool := by
  obtain h | ⟨c, rest, -, -, -, h⟩ := s.takeInHand_cases <;> rw [h]

@[simp] theorem State.takeInHand_timer : s.takeInHand.timer = s.timer := by
  obtain h | ⟨c, rest, -, -, -, h⟩ := s.takeInHand_cases <;> rw [h]

@[simp] theorem State.takeInHand_sweep : s.takeInHand.sweep = s.sweep := by
  obtain h | ⟨c, rest, -, -, -, h⟩ := s.takeInHand_cases <;> rw [h]

@[simp] theorem State.takeInHand_profiles : s.takeInHand.profiles = s.profiles := by
  obtain h | ⟨c, rest, -, -, -, h⟩ := s.takeInHand_cases <;> rw [h]

@[simp] theorem State.takeInHand_violations : s.takeInHand.violations = s.violations := by
  obtain h | ⟨c, rest, -, -, -, h⟩ := s.takeInHand_cases <;> rw [h]

@[simp] theorem State.takeInHand_maint : s.takeInHand.maint = s.maint := by
  obtain h | ⟨c, rest, -, -, -, h⟩ := s.takeInHand_cases <;> rw [h]

@[simp] theorem State.takeInHand_pornLow : s.takeInHand.pornLow = s.pornLow := by
  obtain h | ⟨c, rest, -, -, -, h⟩ := s.takeInHand_cases <;> rw [h]

@[simp] theorem State.takeInHand_frst : s.takeInHand.frst = s.frst := by
  obtain h | ⟨c, rest, -, -, -, h⟩ := s.takeInHand_cases <;> rw [h]

@[simp] theorem State.takeInHand_freeReads : s.takeInHand.freeReads = s.freeReads := by
  obtain h | ⟨c, rest, -, -, -, h⟩ := s.takeInHand_cases <;> rw [h]

@[simp] theorem State.takeInHand_pending : s.takeInHand.pending = s.pending := by
  obtain h | ⟨c, rest, -, -, -, h⟩ := s.takeInHand_cases <;> rw [h]

@[simp] theorem State.takeInHand_win (m : Slot) : s.takeInHand.win m = s.win m := by
  simp [State.win]

@[simp] theorem State.takeInHand_expired (m : Slot) : s.takeInHand.expired m = s.expired m := by
  simp [State.expired]

@[simp] theorem State.takeInHand_use (m : Slot) : s.takeInHand.use m = s.use m := by
  simp [State.use]

@[simp] theorem State.takeInHand_ticket (j : TicketNo) : s.takeInHand.ticket j = s.ticket j := by
  simp [State.ticket]

@[simp] theorem State.takeInHand_profile (q : Requester) : s.takeInHand.profile q = s.profile q := by
  simp [State.profile]

@[simp] theorem State.takeInHand_violation (q : Requester) : s.takeInHand.violation q = s.violation q := by
  simp [State.violation]

/-- Of the Host Port taking a command changes the Command Queue alone. -/
theorem State.takeInHand_host : s.takeInHand.host = { s.host with commands := s.takeInHand.host.commands } := by
  obtain h | ⟨c, rest, -, -, -, h⟩ := s.takeInHand_cases <;> rw [h]

@[simp] theorem State.takeInHand_responses : s.takeInHand.host.responses = s.host.responses := by
  rw [s.takeInHand_host]

/-- Nothing but the command in hand and the Command Queue changes as the engine takes a command. -/
theorem State.takeInHand_rest : { s.takeInHand with host := s.host, hostHand := s.hostHand } = s := by
  obtain h | ⟨c, rest, -, -, -, h⟩ := s.takeInHand_cases <;> rw [h]

/-! ### Waiting owed responses -/

theorem State.lowestWaiting_none (party : Party) :
    s.lowestWaiting party = none ↔ ∀ n : Slot, (s.win n).waitingResponse party = none := by
  simp [State.lowestWaiting, allSlots, List.find?_eq_none]

theorem State.lowestWaiting_some (party : Party) (n : Slot) :
    s.lowestWaiting party = some n ↔ ∃ r, LowestWaits s party n r := by
  simp only [State.lowestWaiting, allSlots, LowestWaits, List.find?_eq_some_iff_append]
  constructor
  · rintro ⟨hn, as, bs, hsplit, hlow⟩
    obtain ⟨r, hr⟩ := Option.isSome_iff_exists.mp hn
    refine ⟨r, hr, fun m hm => ?_⟩
    have hmem : m ∈ as ++ n :: bs := hsplit ▸ List.mem_finRange m
    have hsorted : (as ++ n :: bs).Pairwise (· < ·) := hsplit ▸ List.pairwise_lt_finRange 64
    rw [List.pairwise_append, List.pairwise_cons] at hsorted
    rcases List.mem_append.mp hmem with h | h
    · simpa using hlow m h
    · rcases List.mem_cons.mp h with rfl | h
      · exact absurd hm (lt_irrefl _)
      · exact absurd (hsorted.2.1.1 m h) (not_lt.mpr hm.le)
  · rintro ⟨r, hr, hlow⟩
    obtain ⟨as, bs, hsplit⟩ := List.append_of_mem (List.mem_finRange n)
    refine ⟨by simp [hr], as, bs, hsplit, fun m hm => ?_⟩
    have hsorted : (as ++ n :: bs).Pairwise (· < ·) := hsplit ▸ List.pairwise_lt_finRange 64
    rw [List.pairwise_append] at hsorted
    simp [hlow m (hsorted.2.2 m hm n (by simp))]

/-- How the engine moves on when it takes what it may (R140, R143). -/
theorem State.takeInHand_movesOn : EngineMovesOn s.hostHand s.host.commands s.takeInHand := by
  have waits : ∀ t : State, t.table = s.table →
      ((∀ n : Slot, (t.win n).waitingResponse .host = none) ↔ s.lowestWaiting .host = none) := by
    intro t ht; rw [State.lowestWaiting_none]; simp only [State.win, ht]
  have hw := waits s.takeInHand (by simp)
  unfold EngineMovesOn
  split
  · rename_i h q hh
    have hm : s.mayTake = false := by simp [State.mayTake, hh]
    obtain e | ⟨c, rest, -, -, h', -⟩ := s.takeInHand_cases
    · rw [e]; exact ⟨hh, rfl⟩
    · simp [hm] at h'
  · rename_i hh hc
    have : s.takeInHand = s := by unfold State.takeInHand; rw [hc]
    rw [this]; exact ⟨hh, hc⟩
  · rename_i c rest hh hc
    simp only [hw, State.takeInHand_responses]
    have hm : s.mayTake = true ↔ s.host.responses.length < 16 ∧ s.lowestWaiting .host = none := by
      simp only [State.mayTake, hh, hc, State.responsePlaceFree, Config.responsePlaces, Bool.and_eq_true,
        Option.isNone_iff_eq_none]
      simp
      exact fun _ => ⟨of_decide_eq_true, fun h => decide_eq_true h⟩
    unfold HostCommand.passes State.takeInHand
    rw [hc]
    cases hs : symOn .host c.command.number with
    | none => simp [hs, hh, hc]
    | some sym =>
      simp only [hs, Bool.and_eq_true, hm]
      by_cases h1 : s.host.responses.length < 16 ∧ s.lowestWaiting .host = none <;>
        by_cases h2 : sym.needsGrant = true <;>
        by_cases h3 : (!(sym.supervisorOnly && c.privilege == Privilege.user)) = true <;>
        simp_all

/-! ### admitOwed -/

/-- An owed response enters when there is room and one waits, and nothing happens otherwise (R63, R147, R161). -/
theorem State.admitOwed_enters (party : Party) (n : Slot) (r : Response) (hw : LowestWaits s party n r)
    (hr : s.roomFor party = true) :
    s.admitOwed party = (s.setWin n { s.win n with owed := none }).place party r := by
  have h := (s.lowestWaiting_some party n).mpr ⟨r, hw⟩
  unfold State.admitOwed
  rw [h]; simp only [hw.1, hr, if_true]

theorem State.admitOwed_stays (party : Party)
    (h : s.roomFor party = false ∨ ∀ n : Slot, (s.win n).waitingResponse party = none) :
    s.admitOwed party = s := by
  unfold State.admitOwed
  rcases h with h | h
  · split
    · rfl
    · split
      · rfl
      · simp [h]
  · rw [(s.lowestWaiting_none party).mpr h]

theorem State.admitOwed_cases (party : Party) :
    s.admitOwed party = s ∨ ∃ n r, LowestWaits s party n r ∧ s.roomFor party = true ∧
      s.admitOwed party = (s.setWin n { s.win n with owed := none }).place party r := by
  cases hr : s.roomFor party with
  | false => exact .inl (s.admitOwed_stays party (.inl hr))
  | true =>
    cases hw : s.lowestWaiting party with
    | none => exact .inl (s.admitOwed_stays party (.inr ((s.lowestWaiting_none party).mp hw)))
    | some n =>
      obtain ⟨r, h⟩ := (s.lowestWaiting_some party n).mp hw
      exact .inr ⟨n, r, h, rfl, s.admitOwed_enters party n r h hr⟩

@[simp] theorem State.place_arbiter (party : Party) (r : Response) : (s.place party r).arbiter = s.arbiter := by
  cases party <;> rfl

@[simp] theorem State.admitOwed_arbiter (party : Party) : (s.admitOwed party).arbiter = s.arbiter := by
  obtain h | ⟨n, r, -, -, h⟩ := s.admitOwed_cases party <;> rw [h]; simp

@[simp] theorem State.place_lookup (party : Party) (r : Response) : (s.place party r).lookup = s.lookup := by
  cases party <;> rfl

@[simp] theorem State.admitOwed_lookup (party : Party) : (s.admitOwed party).lookup = s.lookup := by
  obtain h | ⟨n, r, -, -, h⟩ := s.admitOwed_cases party <;> rw [h]; simp

@[simp] theorem State.place_pool (party : Party) (r : Response) : (s.place party r).pool = s.pool := by
  cases party <;> rfl

@[simp] theorem State.admitOwed_pool (party : Party) : (s.admitOwed party).pool = s.pool := by
  obtain h | ⟨n, r, -, -, h⟩ := s.admitOwed_cases party <;> rw [h]; simp

@[simp] theorem State.place_timer (party : Party) (r : Response) : (s.place party r).timer = s.timer := by
  cases party <;> rfl

@[simp] theorem State.admitOwed_timer (party : Party) : (s.admitOwed party).timer = s.timer := by
  obtain h | ⟨n, r, -, -, h⟩ := s.admitOwed_cases party <;> rw [h]; simp

@[simp] theorem State.place_sweep (party : Party) (r : Response) : (s.place party r).sweep = s.sweep := by
  cases party <;> rfl

@[simp] theorem State.admitOwed_sweep (party : Party) : (s.admitOwed party).sweep = s.sweep := by
  obtain h | ⟨n, r, -, -, h⟩ := s.admitOwed_cases party <;> rw [h]; simp

@[simp] theorem State.place_profiles (party : Party) (r : Response) : (s.place party r).profiles = s.profiles := by
  cases party <;> rfl

@[simp] theorem State.admitOwed_profiles (party : Party) : (s.admitOwed party).profiles = s.profiles := by
  obtain h | ⟨n, r, -, -, h⟩ := s.admitOwed_cases party <;> rw [h]; simp

@[simp] theorem State.place_violations (party : Party) (r : Response) : (s.place party r).violations = s.violations := by
  cases party <;> rfl

@[simp] theorem State.admitOwed_violations (party : Party) : (s.admitOwed party).violations = s.violations := by
  obtain h | ⟨n, r, -, -, h⟩ := s.admitOwed_cases party <;> rw [h]; simp

@[simp] theorem State.place_hostHand (party : Party) (r : Response) : (s.place party r).hostHand = s.hostHand := by
  cases party <;> rfl

@[simp] theorem State.admitOwed_hostHand (party : Party) : (s.admitOwed party).hostHand = s.hostHand := by
  obtain h | ⟨n, r, -, -, h⟩ := s.admitOwed_cases party <;> rw [h]; simp

@[simp] theorem State.place_pornLow (party : Party) (r : Response) : (s.place party r).pornLow = s.pornLow := by
  cases party <;> rfl

@[simp] theorem State.admitOwed_pornLow (party : Party) : (s.admitOwed party).pornLow = s.pornLow := by
  obtain h | ⟨n, r, -, -, h⟩ := s.admitOwed_cases party <;> rw [h]; simp

@[simp] theorem State.place_frst (party : Party) (r : Response) : (s.place party r).frst = s.frst := by
  cases party <;> rfl

@[simp] theorem State.admitOwed_frst (party : Party) : (s.admitOwed party).frst = s.frst := by
  obtain h | ⟨n, r, -, -, h⟩ := s.admitOwed_cases party <;> rw [h]; simp

@[simp] theorem State.place_freeReads (party : Party) (r : Response) : (s.place party r).freeReads = s.freeReads := by
  cases party <;> rfl

@[simp] theorem State.admitOwed_freeReads (party : Party) : (s.admitOwed party).freeReads = s.freeReads := by
  obtain h | ⟨n, r, -, -, h⟩ := s.admitOwed_cases party <;> rw [h]; simp

@[simp] theorem State.place_pending (party : Party) (r : Response) : (s.place party r).pending = s.pending := by
  cases party <;> rfl

@[simp] theorem State.admitOwed_pending (party : Party) : (s.admitOwed party).pending = s.pending := by
  obtain h | ⟨n, r, -, -, h⟩ := s.admitOwed_cases party <;> rw [h]; simp

@[simp] theorem State.place_table (party : Party) (r : Response) : (s.place party r).table = s.table := by
  cases party <;> rfl

@[simp] theorem State.place_win (party : Party) (r : Response) (m : Slot) : (s.place party r).win m = s.win m := by
  cases party <;> rfl

/-- Of a window an entering owed response changes the owed response alone. -/
theorem State.admitOwed_win (party : Party) (m : Slot) :
    (s.admitOwed party).win m = s.win m ∨ (s.admitOwed party).win m = { s.win m with owed := none } := by
  obtain h | ⟨n, r, -, -, h⟩ := s.admitOwed_cases party <;> rw [h]
  · exact .inl rfl
  · by_cases hm : m = n
    · subst hm; right; simp
    · left; simp [hm]

/-! ### The arbiter -/

theorem State.grantee_maint : s.grantee = some .maint ↔ s.arbiter.holder = none ∧ s.maintClaims = true := by
  unfold State.grantee
  cases hh : s.arbiter.holder <;> cases s.maintClaims <;> simp
  repeat' split
  all_goals simp

theorem State.grantee_host (h : s.grantee = some .host) : s.arbiter.holder = none ∧ s.hostClaims = true := by
  unfold State.grantee at h
  repeat' split at h
  all_goals simp_all

theorem State.grantee_sweep (h : s.grantee = some .sweep) : s.arbiter.holder = none ∧ s.sweepClaims = true := by
  unfold State.grantee at h
  repeat' split at h
  all_goals simp_all

theorem State.grantee_lookup (h : s.grantee = some .lookup) : s.arbiter.holder = none ∧ s.lookupClaims = true := by
  unfold State.grantee at h
  repeat' split at h
  all_goals simp_all

/-! ### The walk yield -/

@[simp] theorem State.settleYield_maintClaims : s.settleYield.maintClaims = s.maintClaims := rfl
@[simp] theorem State.settleYield_lookupClaims : s.settleYield.lookupClaims = s.lookupClaims := rfl
@[simp] theorem State.settleYield_hostClaims : s.settleYield.hostClaims = s.hostClaims := rfl
@[simp] theorem State.settleYield_othersClaim : s.settleYield.othersClaim = s.othersClaim := rfl

/-- Settling leaves a yield only beside another claim (R126). -/
theorem State.settleYield_sound : s.settleYield.sweep.yields = true → s.settleYield.othersClaim = true := by
  simp

/-- An event that leaves the Sweep Engine alone and then settles its yield (R106, R126, R129). -/
theorem State.settleYield_settled (t : State) (h : t.sweep = s.sweep) : YieldSettled s t.settleYield := by
  simp [YieldSettled, h]

/-! ### The link registers -/

/-- An instruction code selects a link register exactly when it is that register's code (R186). -/
theorem LinkRegister.ofCode_eq_some (code : BitVec 6) (register : LinkRegister) :
    LinkRegister.ofCode code = some register ↔ code = register.code := by
  cases register <;> revert code <;> decide

/-- An update with another instruction than LINKCMD changes nothing (R186). -/
theorem State.linkUpdate_of_ne (code : BitVec 6) (frame : Frame) (h : code ≠ LinkRegister.command.code) :
    s.linkUpdate code frame = s := by
  have := (LinkRegister.ofCode_eq_some code .command).not.mpr h
  unfold State.linkUpdate
  split <;> simp_all

/-- A capture with another instruction than LINKRSP changes nothing (R186). -/
theorem State.linkCapture_of_ne (code : BitVec 6) (h : code ≠ LinkRegister.response.code) : s.linkCapture code = s := by
  have := (LinkRegister.ofCode_eq_some code .response).not.mpr h
  unfold State.linkCapture
  split <;> simp_all

/-! ### Table commands of the parties -/

/-- A granted command runs on the state with the grant held, and its operation is finished (R123, R143, R160). -/
theorem State.runGranted_granted (party : Party) (sym : CommandSym) (c : Command)
    (operation : Party → Command → State → State × Option Response) (h : s.Granted party sym c) :
    s.whilePowered (s.runGranted party sym operation) =
      (operation party c (s.grantTo (engineOf party))).1.finishCommand party
        (operation party c (s.grantTo (engineOf party))).2 := by
  obtain ⟨h1, h2, h3, h4⟩ := h
  simp [State.whilePowered, h1, State.runGranted, h2, h3, h4]

theorem State.runSupervisor_granted (sym : CommandSym) (c : Command)
    (operation : Party → Command → State → State × Option Response) (h : s.Granted .host sym c) :
    s.whilePowered (s.runSupervisor sym operation) =
      (operation .host c (s.grantTo .host)).1.finishCommand .host (operation .host c (s.grantTo .host)).2 := by
  have hh : s.hostHand.isSome = true := by
    obtain ⟨-, h2, -⟩ := h
    cases hx : s.hostHand <;> simp_all [State.inHand]
  have := s.runGranted_granted .host sym c operation h
  simpa [State.runSupervisor, hh, engineOf] using this

/-- A command runs whole at its grant, or nothing happens. -/
theorem State.runGranted_cases (party : Party) (sym : CommandSym)
    (operation : Party → Command → State → State × Option Response) :
    s.runGranted party sym operation = s ∨ ∃ c, s.inHand party = some c ∧ symOn party c.number = some sym ∧
      s.grantee = some (engineOf party) ∧ s.runGranted party sym operation =
        (operation party c (s.grantTo (engineOf party))).1.finishCommand party
          (operation party c (s.grantTo (engineOf party))).2 := by
  unfold State.runGranted
  split
  · exact .inl rfl
  · rename_i c hc
    split
    · rename_i h
      simp only [Bool.and_eq_true, beq_iff_eq] at h
      exact .inr ⟨c, hc, h.1, h.2, rfl⟩
    · exact .inl rfl

/-- Finishing an operation that has left a Window Table and everything else as the grant found it. -/
theorem State.finishCommand_operation (party : Party) (response : Option Response) (table : WindowTable)
    (hroom : party = .maint → s.maint.response = none) :
    TableOperation party response s
        (State.finishCommand { s.grantTo (engineOf party) with table := table } party response) ∧
      (State.finishCommand { s.grantTo (engineOf party) with table := table } party response).table = table := by
  cases party with
  | host =>
    cases response with
    | none =>
      simp only [TableOperation, State.finishCommand, Option.toList, List.append_nil]
      generalize hw : State.setHand _ _ = w
      have hm := w.takeInHand_movesOn
      have h1 := w.takeInHand_host
      have h2 := w.takeInHand_rest
      subst hw
      refine ⟨⟨⟨hm, by simp, by simp [State.hostWaitAtGrant, engineOf], h1⟩, by simp, ?_⟩, by simp⟩
      simp
    | some r =>
      simp only [TableOperation, State.finishCommand, Option.toList]
      generalize hw : State.setHand _ _ = w
      have hm := w.takeInHand_movesOn
      have h1 := w.takeInHand_host
      have h2 := w.takeInHand_rest
      subst hw
      refine ⟨⟨⟨hm, by simp, by simp [State.hostWaitAtGrant, engineOf], h1⟩, by simp, ?_⟩, by simp⟩
      simp
  | maint =>
    cases response with
    | none =>
      refine ⟨⟨⟨?_, rfl, rfl, rfl⟩, rfl, rfl⟩, rfl⟩
      show { s.maint with command := none } = { s.maint with command := none, response := none }
      rw [← hroom rfl]
    | some r => exact ⟨⟨⟨rfl, rfl, rfl, rfl⟩, rfl, rfl⟩, rfl⟩

/-- A granted tool command finds the response register empty (R128). -/
theorem State.Granted.maint_room (party : Party) (sym : CommandSym) (c : Command) (h : s.Granted party sym c)
    (hp : party = .maint) : s.maint.response = none := by
  subst hp
  obtain ⟨-, h2, -, h4⟩ := h
  have := (s.grantee_maint.mp h4).2
  simp only [State.inHand] at h2
  simp only [State.maintClaims, h2, State.roomFor, Bool.and_eq_true, Option.isNone_iff_eq_none] at this
  exact this.2

/-- A granted command whose operation leaves the Window Table `table` and the response `response`, and nothing else
but the grant. -/
theorem State.Granted.tableOperation {party : Party} {sym : CommandSym} {c : Command}
    {operation : Party → Command → State → State × Option Response} {table : WindowTable}
    {response : Option Response} (h : s.Granted party sym c)
    (hop : operation party c (s.grantTo (engineOf party)) =
      ({ s.grantTo (engineOf party) with table := table }, response)) :
    TableOperation party response s (s.whilePowered (s.runGranted party sym operation)) ∧
      (s.whilePowered (s.runGranted party sym operation)).table = table := by
  rw [s.runGranted_granted party sym c operation h, hop]
  exact s.finishCommand_operation party response table (fun hp => State.Granted.maint_room s party sym c h hp)

/-- A table that differs in window n alone. -/
theorem OnlyWindow.of_table {s t : State} {n : Slot} {w : Window}
    (h : t.table = { s.table with windows := s.table.windows.set n.val w }) : OnlyWindow n w s t := by
  refine ⟨fun m => ?_, by simp [KeepsTableItems, h]⟩
  simp only [State.win, h, Vector.getElem_set, Fin.ext_iff, eq_comm]

/-- A granted command whose operation replaces window n by w and answers `response`. -/
theorem State.Granted.windowOperation {party : Party} {sym : CommandSym} {c : Command}
    {operation : Party → Command → State → State × Option Response} {n : Slot} {w : Window}
    {response : Option Response} (h : s.Granted party sym c)
    (hop : operation party c (s.grantTo (engineOf party)) = ((s.grantTo (engineOf party)).setWin n w, response)) :
    OnlyWindow n w s (s.whilePowered (s.runGranted party sym operation)) ∧
      TableOperation party response s (s.whilePowered (s.runGranted party sym operation)) :=
  have h' := State.Granted.tableOperation s h hop
  ⟨OnlyWindow.of_table h'.2, h'.1⟩

/-- A granted command whose operation changes nothing and answers `response`. -/
theorem State.Granted.readOperation {party : Party} {sym : CommandSym} {c : Command}
    {operation : Party → Command → State → State × Option Response} {response : Option Response}
    (h : s.Granted party sym c)
    (hop : operation party c (s.grantTo (engineOf party)) = (s.grantTo (engineOf party), response)) :
    TableOperation party response s (s.whilePowered (s.runGranted party sym operation)) ∧
      (s.whilePowered (s.runGranted party sym operation)).table = s.table :=
  State.Granted.tableOperation s h hop

end Sys2Proof.Machine
end

