-- ==== Sys2Proof/Laws/PerInstr.lean ====
section
/-! SUPPORT. Statements about every command as syntax, one lemma per constructor. -/

namespace Sys2Proof.Laws

/-- A write on the host bus that is read as a row of the table is read with operands that row admits (R133, R184). -/
def BusWriteRows.Statement (i : Instr) : Prop :=
  ∀ register privilege word, readBusWrite register privilege word = i → i.wellFormed = true

/-- Of the three sticky bits the third is set when the other two are not and the three are not 0. -/
theorem sticky_rest (word : Word) (h3 : word.getLsbD 3 = false) (h4 : word.getLsbD 4 = false)
    (h : word.extractLsb' 3 3 ≠ 0#3) : word.getLsbD 5 = true := by
  by_contra h5
  refine h (BitVec.eq_of_getLsbD_eq fun i hi => ?_)
  have : i = 0 ∨ i = 1 ∨ i = 2 := by omega
  obtain rfl | rfl | rfl := this <;> simp_all

/-- What a write on the host bus is read as: one of seven rows, with its check met. -/
theorem readBusWrite_wellFormed (register : HostRegister) (privilege : Privilege) (word : Word) :
    (readBusWrite register privilege word).wellFormed = true := by
  unfold readBusWrite
  split
  · next h => exact h
  · next h =>
    cases register
    case eventPending =>
      by_cases h3 : word.getLsbD 3 = true
      · simp only [h3, if_true, Instr.wellFormed]
      · by_cases h4 : word.getLsbD 4 = true
        · simp only [h3, h4, if_true, Bool.false_eq_true, if_false, Instr.wellFormed]
        · simp only [h3, h4, Bool.false_eq_true, if_false, Instr.wellFormed]
          exact sticky_rest word (by simpa using h3) (by simpa using h4)
            (fun h0 => h (by simp [ignoresWrite, h0]))
    all_goals simp_all [ignoresWrite, Instr.wellFormed]

theorem BusWriteRows.powerOnReset (straps : Straps) : BusWriteRows.Statement (.powerOnReset straps) :=
  fun register privilege word h => h ▸ readBusWrite_wellFormed register privilege word

theorem BusWriteRows.lookupRequest (request : LookupRequest) : BusWriteRows.Statement (.lookupRequest request) :=
  fun register privilege word h => h ▸ readBusWrite_wellFormed register privilege word

theorem BusWriteRows.lookup : BusWriteRows.Statement .lookup :=
  fun register privilege word h => h ▸ readBusWrite_wellFormed register privilege word

theorem BusWriteRows.verdictDeparture : BusWriteRows.Statement .verdictDeparture :=
  fun register privilege word h => h ▸ readBusWrite_wellFormed register privilege word

theorem BusWriteRows.completionNotice (ticket : TicketNo) (requester : Requester) : BusWriteRows.Statement (.completionNotice ticket requester) :=
  fun register privilege word h => h ▸ readBusWrite_wellFormed register privilege word

theorem BusWriteRows.fabricReset : BusWriteRows.Statement .fabricReset :=
  fun register privilege word h => h ▸ readBusWrite_wellFormed register privilege word

theorem BusWriteRows.frstRelease : BusWriteRows.Statement .frstRelease :=
  fun register privilege word h => h ▸ readBusWrite_wellFormed register privilege word

theorem BusWriteRows.sweepRequest : BusWriteRows.Statement .sweepRequest :=
  fun register privilege word h => h ▸ readBusWrite_wellFormed register privilege word

theorem BusWriteRows.visit : BusWriteRows.Statement .visit :=
  fun register privilege word h => h ▸ readBusWrite_wellFormed register privilege word

theorem BusWriteRows.commandWord (privilege : Privilege) (word : Word) : BusWriteRows.Statement (.commandWord privilege word) :=
  fun register privilege word h => h ▸ readBusWrite_wellFormed register privilege word

theorem BusWriteRows.unknownCommand (party : Party) : BusWriteRows.Statement (.unknownCommand party) :=
  fun register privilege word h => h ▸ readBusWrite_wellFormed register privilege word

theorem BusWriteRows.stg (party : Party) : BusWriteRows.Statement (.stg party) :=
  fun register privilege word h => h ▸ readBusWrite_wellFormed register privilege word

theorem BusWriteRows.abn (party : Party) : BusWriteRows.Statement (.abn party) :=
  fun register privilege word h => h ▸ readBusWrite_wellFormed register privilege word

theorem BusWriteRows.cmt (party : Party) : BusWriteRows.Statement (.cmt party) :=
  fun register privilege word h => h ▸ readBusWrite_wellFormed register privilege word

theorem BusWriteRows.rtr (party : Party) : BusWriteRows.Statement (.rtr party) :=
  fun register privilege word h => h ▸ readBusWrite_wellFormed register privilege word

theorem BusWriteRows.rnw (party : Party) : BusWriteRows.Statement (.rnw party) :=
  fun register privilege word h => h ▸ readBusWrite_wellFormed register privilege word

theorem BusWriteRows.mod (party : Party) : BusWriteRows.Statement (.mod party) :=
  fun register privilege word h => h ▸ readBusWrite_wellFormed register privilege word

theorem BusWriteRows.qry (party : Party) : BusWriteRows.Statement (.qry party) :=
  fun register privilege word h => h ▸ readBusWrite_wellFormed register privilege word

theorem BusWriteRows.rex (party : Party) : BusWriteRows.Statement (.rex party) :=
  fun register privilege word h => h ▸ readBusWrite_wellFormed register privilege word

theorem BusWriteRows.sdf : BusWriteRows.Statement .sdf :=
  fun register privilege word h => h ▸ readBusWrite_wellFormed register privilege word

theorem BusWriteRows.ten : BusWriteRows.Statement .ten :=
  fun register privilege word h => h ▸ readBusWrite_wellFormed register privilege word

theorem BusWriteRows.tds : BusWriteRows.Statement .tds :=
  fun register privilege word h => h ▸ readBusWrite_wellFormed register privilege word

theorem BusWriteRows.own : BusWriteRows.Statement .own :=
  fun register privilege word h => h ▸ readBusWrite_wellFormed register privilege word

theorem BusWriteRows.spr : BusWriteRows.Statement .spr :=
  fun register privilege word h => h ▸ readBusWrite_wellFormed register privilege word

theorem BusWriteRows.srv : BusWriteRows.Statement .srv :=
  fun register privilege word h => h ▸ readBusWrite_wellFormed register privilege word

theorem BusWriteRows.rvs : BusWriteRows.Statement .rvs :=
  fun register privilege word h => h ▸ readBusWrite_wellFormed register privilege word

theorem BusWriteRows.tcf : BusWriteRows.Statement .tcf :=
  fun register privilege word h => h ▸ readBusWrite_wellFormed register privilege word

theorem BusWriteRows.tst : BusWriteRows.Statement .tst :=
  fun register privilege word h => h ▸ readBusWrite_wellFormed register privilege word

theorem BusWriteRows.tsp : BusWriteRows.Statement .tsp :=
  fun register privilege word h => h ▸ readBusWrite_wellFormed register privilege word

theorem BusWriteRows.grt : BusWriteRows.Statement .grt :=
  fun register privilege word h => h ▸ readBusWrite_wellFormed register privilege word

theorem BusWriteRows.rcl : BusWriteRows.Statement .rcl :=
  fun register privilege word h => h ▸ readBusWrite_wellFormed register privilege word

theorem BusWriteRows.responseRead : BusWriteRows.Statement .responseRead :=
  fun register privilege word h => h ▸ readBusWrite_wellFormed register privilege word

theorem BusWriteRows.owedResponse (party : Party) : BusWriteRows.Statement (.owedResponse party) :=
  fun register privilege word h => h ▸ readBusWrite_wellFormed register privilege word

theorem BusWriteRows.clearDrainForced (word : Word) : BusWriteRows.Statement (.clearDrainForced word) :=
  fun register privilege word h => h ▸ readBusWrite_wellFormed register privilege word

theorem BusWriteRows.clearProtocol (word : Word) : BusWriteRows.Statement (.clearProtocol word) :=
  fun register privilege word h => h ▸ readBusWrite_wellFormed register privilege word

theorem BusWriteRows.clearOwnership (word : Word) : BusWriteRows.Statement (.clearOwnership word) :=
  fun register privilege word h => h ▸ readBusWrite_wellFormed register privilege word

theorem BusWriteRows.eventEnableWrite (word : Word) : BusWriteRows.Statement (.eventEnableWrite word) :=
  fun register privilege word h => h ▸ readBusWrite_wellFormed register privilege word

theorem BusWriteRows.portReset : BusWriteRows.Statement .portReset :=
  fun register privilege word h => h ▸ readBusWrite_wellFormed register privilege word

theorem BusWriteRows.ignoredWrite (register : HostRegister) (privilege : Privilege) (word : Word) : BusWriteRows.Statement (.ignoredWrite register privilege word) :=
  fun register privilege word h => h ▸ readBusWrite_wellFormed register privilege word

theorem BusWriteRows.commandFrame (frame : Frame) : BusWriteRows.Statement (.commandFrame frame) :=
  fun register privilege word h => h ▸ readBusWrite_wellFormed register privilege word

theorem BusWriteRows.responseRegisterRead : BusWriteRows.Statement .responseRegisterRead :=
  fun register privilege word h => h ▸ readBusWrite_wellFormed register privilege word

theorem BusWriteRows.linkReset : BusWriteRows.Statement .linkReset :=
  fun register privilege word h => h ▸ readBusWrite_wellFormed register privilege word

theorem BusWriteRows.refclkTick : BusWriteRows.Statement .refclkTick :=
  fun register privilege word h => h ▸ readBusWrite_wellFormed register privilege word

theorem BusWriteRows.pornAssertion : BusWriteRows.Statement .pornAssertion :=
  fun register privilege word h => h ▸ readBusWrite_wellFormed register privilege word

end Sys2Proof.Laws
end

