-- ==== Sys2Proof/Tests/Slice0.lean ====
section
/-! SUPPORT. Tests on worked examples of the spec, a smoke test of each well-formedness check, and a witness for every
statement with hypotheses. -/

namespace Sys2Proof.Tests

open Sys2Proof.Machine

set_option maxRecDepth 20000
set_option Elab.async false

/-! ## Helpers -/

/-- The state after a command. -/
def after (s : State) (c : Instr) : State :=
  match exec c s with
  | .next t => t
  | .fault _ | .refused _ => s

/-- A HOST window with cleared policy, unleased. -/
def window (state : WindowState) (base mask : Page) (rank : BitVec 3) (members : BitVec 16) : Window :=
  { Window.cleared .host none with state, base, mask, rank, members }

/-- A LIVE window over all pages for all requesters. -/
def catchAll : Window := window .live 0#20 0#20 0#3 0xFFFF#16

/-- A command by its four parts. -/
def command (number : BitVec 8) (tag : CommandTag) (operand : BitVec 20) (data : List Word) : Command :=
  ⟨number, tag, operand, data⟩

/-- A table command in the host's hand. -/
def inHost (s : State) (c : Command) : State := s.setHand (some ⟨c, .supervisor⟩)

/-- A table command in the tool's command register. -/
def inTool (s : State) (c : Command) : State := { s with maint := { s.maint with command := some c } }

/-- A command alone in the Command Queue. -/
def queued (s : State) (c : Command) (privilege : Privilege) : State :=
  { s with host := { s.host with commands := [⟨c, privilege⟩] } }

/-- The Lookup Queue, the Verdict Buffer and the in-flight set replaced. -/
def withLookups (s : State) (queue : List QueueEntry) (verdicts : List Verdict) : State :=
  { s with lookup := { s.lookup with
      queue, verdicts, inFlight := queue.map (fun e => (e.requester, e.tag)) ++ verdicts.map (fun v => (v.requester, v.tag)) } }

/-- The Response Queue replaced. -/
def withResponses (s : State) (responses : List Response) : State := { s with host := { s.host with responses } }

/-- The timer RUNNING with prescale 16. -/
def running (s : State) (prescaleCount period counter : Nat) : State :=
  { s with timer := { s.timer with state := .running, prescale := .by16, prescaleCount, period, counter } }

/-- A READ of four bytes. -/
def entry (requester : Requester) (tag : LookupTag) (address : Word) : QueueEntry :=
  ⟨requester, tag, address, 3#6, .read, .normal⟩

/-- A ticket counted against a slot. -/
def counted (s : State) (k : TicketNo) (r : Requester) (n : Slot) : State := s.allocate k r n

/-- All 32 tickets counted for requester 1 against slot 0. -/
def noTickets (s : State) : State :=
  { s with pool := ⟨Vector.replicate 32 (.counted 1 0), s.pool.useCount.set 0 32⟩ }

/-- A drain of a retire that owes a party a response. -/
def retiring (party : Party) (age : BitVec 4) : Window :=
  { catchAll with state := .draining .retire age, owner := party, owed := some ⟨party, 9, none⟩ }

/-- A FREE slot held by an owed response that waits with an outcome. -/
def held (party : Party) : Window := Window.cleared party (some ⟨party, 9, some .forced⟩)

/-- Sixteen responses. -/
def full : List Response := List.replicate 16 ⟨1, .ok, []⟩

/-! ## Well-formedness smoke tests -/

theorem test_ill_formed_clearDrainForced : (Instr.clearDrainForced 0x30#32).wellFormed = false := by decide

theorem test_ill_formed_clearProtocol : (Instr.clearProtocol 0x28#32).wellFormed = false := by decide

theorem test_ill_formed_clearOwnership : (Instr.clearOwnership 0x18#32).wellFormed = false := by decide

theorem test_ill_formed_ignoredWrite :
    (Instr.ignoredWrite .command .user 0#32).wellFormed = false ∧
    (Instr.ignoredWrite .eventPending .supervisor 0x8#32).wellFormed = false ∧
    (Instr.ignoredWrite .eventEnable .supervisor 0#32).wellFormed = false ∧
    (Instr.ignoredWrite .portControl .supervisor 1#32).wellFormed = false := by decide

theorem test_no_table_word_spells_a_command : decodeTableWord 32 0x10200007 = none := by decide

/-- R184: offsets of the register window, and the two that hold no register. -/
theorem test_register_offsets :
    HostRegister.ofOffset 0x10 = some .eventEnable ∧ HostRegister.ofOffset 0x18 = some .none18 ∧
    HostRegister.ofOffset 0x20 = none := by decide

/-! ## Worked examples of the spec -/

/-- The table of 01 section 1.4. -/
def choosing : State :=
  (((((State.reset.setMode .active).setWin 3 (window .live 0x80000#20 0xF0000#20 2#3 0x7#16)).setWin 7
    (window .live 0x80100#20 0xFFF00#20 5#3 0x2#16)).setWin 9 (window (.staged none) 0#20 0#20 7#3 0xFFFF#16)).setWin 12
    (window .live 0x80100#20 0xFFFF0#20 5#3 0x3#16)).setWin 20 catchAll

/-- 01 section 1.4: the winners of the six lookups. -/
theorem test_winners :
    [choosing.winner 0x80105#20 1, choosing.winner 0x80105#20 0, choosing.winner 0x80105#20 2,
      choosing.winner 0x80105#20 5, choosing.winner 0x80110#20 1, choosing.winner 0x90000#20 1] =
    [some 7, some 12, some 3, some 20, some 7, some 20] := by decide +kernel

/-- 10 section 10.1, the example: the words of a [STG]. -/
def staging : State :=
  inHost State.reset (command 0x10#8 2 7#20 [0x801000A0#32, 0x00013831#32, 0x00050002#32, 0xFFF000A0#32])

/-- 10 section 10.1, the example: the header names [STG], tag 2, slot 7. -/
theorem test_header : Command.ofHeader 0x10200007#32 = command 0x10#8 2 7#20 [] := by decide

/-- 10 section 10.1, the example: the window that those words stage. -/
theorem test_stg_window :
    (after staging (.stg .host)).win 7 =
      { state := .staged none, owner := .host, base := 0x80100#20, mask := 0xFFF00#20, rank := 5#3, members := 2#16,
        policy := ⟨⟨true, false, false⟩, ⟨true, true, false⟩, .enforce, ⟨.bits32, 3#4, true, .little, false⟩⟩,
        reload := 10#8, remaining := 10#8, fresh := false, owed := none } := by decide +kernel

/-- 10 section 10.1, the example: the five words of the [QRY] after a [CMT]. -/
theorem test_qry_words :
    ((after (inHost (after (inHost (after staging (.stg .host)) (command 0x12#8 4 0#20 [])) (.cmt .host))
      (command 0x16#8 3 7#20 [])) (.qry .host)).host.responses.getLast?.map Response.words) =
      some [0x00300005#32, 0x801000A0#32, 0x00013831#32, 0x00A50002#32, 0xFFF000A0#32] := by decide +kernel

/-- R183: a read of an empty Response Queue returns 00000401h. -/
theorem test_empty_response : (after State.reset .responseRead).host.readData = 0x00000401#32 := by decide

/-- 02 section 2.8, third line: at 2 free places of reserve 2 a NORMAL request is answered BACKOFF. -/
theorem test_backoff :
    (after (withLookups State.reset (List.replicate 14 (entry 0 0 0#32)) []) (.lookupRequest ⟨5, 1, 0#32, 3#6, 0#2⟩)).lookup.verdicts =
      [⟨5, 1, .backoff⟩] := by decide +kernel

/-- 02 section 2.9: window 7 of USER rights READ, of rank 5, and the lookup 1/0 at its grant. -/
def reading : State :=
  withLookups ((State.reset.setMode .active).setWin 7
    { window .live 0x80100#20 0xFFF00#20 5#3 0x2#16 with policy := { Policy.cleared with user := ⟨true, false, false⟩ } })
    [entry 1 0 0x80105000#32] []

/-- 02 section 2.9: PERMIT, source 7, ticket 0, and the use count 1. -/
theorem test_lookup_permit :
    (after reading .lookup).lookup.verdicts = [⟨1, 0, .permit (.slot 7) (some 0) Attributes.cleared⟩] ∧
    (after reading .lookup).use 7 = 1 ∧ (after reading .lookup).ticket 0 = .counted 1 7 := by decide +kernel

/-- 03 section 3.7: window 14 draining at age 3 with ticket 2 of requester 3 outstanding, drain limit 4. -/
def forcing : State :=
  { counted ((State.reset.setMode .active).setWin 14 { retiring .host 3#4 with owed := some ⟨.host, 6, none⟩ }) 2 3 14 with
    sweep := { walk := .walking 14 false, yields := false } }

/-- 03 section 3.7, visit 4: FREE, the ticket an ORPHAN, the response FORCED, DRAIN_FORCED. -/
theorem test_forced_drain :
    (after forcing .visit).win 14 = Window.cleared .host none ∧ (after forcing .visit).ticket 2 = .orphan 3 ∧
    (after forcing .visit).host.responses = [⟨6, .forced, []⟩] ∧ (after forcing .visit).host.drainForced = true := by
  decide +kernel

/-- 03 section 3.7: a completion by requester 7 is refused with WRONG_REQUESTER. -/
theorem test_wrong_requester :
    (after forcing (.completionNotice 2 7)).host.protocolStatus = some (.wrongRequester 7) ∧
    (after forcing (.completionNotice 2 7)).ticket 2 = .counted 3 14 := by decide +kernel

/-- 03 section 3.8: slot 22 is FREE with outcome FABRIC_RESET owed, and slot 23 stays LIVE with remaining 5. -/
theorem test_fabric_reset :
    (retiring .maint 2#4).atFabricReset = Window.cleared .maint (some ⟨.maint, 9, some .fabricReset⟩) ∧
    { catchAll with reload := 9#8, remaining := 5#8 }.atFabricReset = { catchAll with reload := 9#8, remaining := 5#8 } := by
  decide

/-- 04 section 4.11, [MOD] 1 and 2: the policy word before is 00013831h with SUPERVISOR READ and WRITE. -/
theorem test_mod :
    let s := State.reset.setWin 12 { catchAll with policy := Policy.ofWord 0x00013831#32 }
    let one := after (inHost s (command 0x15#8 1 12#20 [0#32, 0x2#32, 0x2#32])) (.mod .host)
    let two := after (inHost one (command 0x15#8 2 12#20 [0#32, 0x40100#32, 0x40300#32])) (.mod .host)
    (one.win 12).policy.word = 0x00013833#32 ∧ (two.win 12).policy.word = 0x00053933#32 ∧
      two.host.responses = [⟨1, .ok, [0x00013831#32]⟩, ⟨2, .ok, [0x00013833#32]⟩] := by decide +kernel

/-- 04 section 4.12: a [STG] whose target has left LIVE is refused with BAD_SUPERSEDE. -/
theorem test_bad_supersede :
    (after (inHost (State.reset.setWin 5 (retiring .host 0#4))
      (command 0x10#8 2 6#20 [0x00000005#32, 0#32, 0#32, 0x00000008#32])) (.stg .host)).host.responses =
      [⟨2, .badSupersede, []⟩] := by decide +kernel

/-- 05 section 5.7: walk 3's visit takes window 10 from remaining 1 to FREE, and slot 10 joins the expiry set. -/
theorem test_expiry :
    let s := { State.reset.setWin 10 { catchAll with reload := 2#8, remaining := 1#8 } with
      sweep := { walk := .walking 10 false, yields := false } }
    ((after s .visit).win 10).isFree = true ∧ (after s .visit).expired 10 = true ∧
      (after s .visit).sweep.walk = .walking 11 false := by decide +kernel

/-- 05 section 5.8: the visit of an end-marked walk ends it. -/
theorem test_end_mark :
    (after { State.reset with sweep := { walk := .walking 15 true, yields := false } } .visit).sweep.walk = .idle := by
  decide +kernel

/-- R126: at the release that ends slot 63's visit a waiting lookup is next, also when a sweep request starts the next
walk before its grant. -/
theorem test_yield_last_visit :
    let s := { (withLookups (running State.reset 0 2 0) [entry 0 0 0#32] []).setMode .active with
      sweep := { walk := .walking 63 false, yields := false } }
    (after s .visit).sweep = ⟨.idle, true⟩ ∧ (after (after s .visit) .sweepRequest).sweep = ⟨.walking 0 false, true⟩ ∧
      (after (after s .visit) .sweepRequest).grantee = some .lookup := by decide +kernel

/-- R106, R129: a port reset that withdraws the last other claim ends the yield, so the walk's claim stands. -/
theorem test_yield_withdrawn :
    let s := { inHost State.reset (command 0x16#8 0 0#20 []) with sweep := { walk := .walking 5 false, yields := true } }
    s.grantee = some .host ∧ (after s .portReset).sweep.yields = false ∧ (after s .portReset).grantee = some .sweep := by
  decide +kernel

/-- R186: the codes 24h, 25h and 26h select the three link registers, and 3Fh none. -/
theorem test_link_codes :
    [0x24#6, 0x25#6, 0x26#6, 0x3F#6].map LinkRegister.ofCode =
      [some .command, some .response, some .status, none] := by decide

/-- 06 section 6.6, grants 5 to 7: a lookup raises the host wait count to 8, and the host is then preferred. -/
theorem test_age_rule :
    let s := { inHost (withLookups State.reset [entry 0 0 0#32, entry 0 1 0#32] []) (command 0x14#8 1 2#20 []) with
      arbiter := ⟨none, 7⟩ }
    s.grantee = some .lookup ∧ (after s .lookup).arbiter.hostWait = 8 ∧ (after s .lookup).grantee = some .host := by
  decide +kernel

/-- 07 section 7.9: the header of a [MOD] that finds no free place. -/
theorem test_overflow :
    let s := { State.reset with hostHand := some ⟨command 0x12#8 0 0#20 [], .user⟩
                                host := { State.reset.host with commands := List.replicate 8 ⟨command 0x17#8 3 0#20 [], .user⟩ } }
    (after s (.commandWord .user 0x15200004#32)).host.assembler = .discard 3 ∧
    (after s (.commandWord .user 0x15200004#32)).host.protocolStatus = some .commandOverflow := by decide +kernel

/-- 08 section 8.7: the power-on owners with TOOLPRES asserted, and the [GRT] that moves slots 48, 49 and 51. -/
theorem test_grant_slots :
    let s := (after State.reset (.powerOnReset ⟨0#2, false, true⟩)).setWin 50
      { window (.staged none) 0#20 0#20 0#3 0#16 with owner := .maint }
    let t := after (inTool s (command 0x50#8 6 0x03330#20 [])) .grt
    t.maint.response = some ⟨6, .ok, [3#32]⟩ ∧ t.host.ownership = true ∧
      [(t.win 47).owner, (t.win 48).owner, (t.win 49).owner, (t.win 50).owner, (t.win 51).owner, (t.win 52).owner] =
        [.host, .host, .host, .maint, .host, .maint] := by decide +kernel

/-- 09 section 9.4: the record word of a watched write of 8 bytes decided by window 17, overrun set. -/
theorem test_violation_word :
    (⟨0x40001000#32, 7#6, .write, .slot 17, .watched, true⟩ : Violation).recordWord = 0x11110731#32 := by decide

/-- 09 section 9.5: [SRV] 6 with 11 NORMAL entries queued is a RESERVE_CONFLICT, and with 10 it is OK. -/
theorem test_reserve :
    (after (queued (withLookups State.reset (List.replicate 11 (entry 0 0 0#32)) []) (command 0x31#8 0 6#20 []) .supervisor)
      .srv).host.responses = [⟨0, .reserveConflict, []⟩] ∧
    (after (queued (withLookups State.reset (List.replicate 10 (entry 0 0 0#32)) []) (command 0x31#8 0 6#20 []) .supervisor)
      .srv).lookup.reserve = 6 := by decide +kernel

/-- R25: a power-on reset with straps 0 leaves what `State.reset` holds. -/
theorem test_power_on : after State.reset (.powerOnReset ⟨0#2, false, false⟩) = State.reset := by decide +kernel

/-- R156: a frame that finds a full response register is refused and sets BUSY. -/
theorem test_busy :
    (after { State.reset with maint := { State.reset.maint with response := some ⟨1, .ok, []⟩ } }
      (.commandFrame ⟨0x16300007#32, 0#32, 0#32, 0#32, 0#32⟩)).maint =
      { State.reset.maint with response := some ⟨1, .ok, []⟩, busy := true } := by decide +kernel

/-! ## Witnesses: states and operands that meet the hypotheses of each statement -/

/-- The sound-queues invariant as one check. -/
def queuesCheck (s : State) : Bool :=
  s.lookup.queue.length ≤ 16 && s.lookup.reserve ≤ 8 && s.normalQueued + s.lookup.reserve ≤ 16 &&
  s.lookup.verdicts.length ≤ 8 && s.host.responses.length ≤ 16 &&
  s.host.commands.length + s.host.assembler.reserved ≤ 8 && s.arbiter.hostWait ≤ 8 && s.arbiter.holder == none &&
  (!s.roomFor .host || s.lowestWaiting .host == none) && (!s.roomFor .maint || s.lowestWaiting .maint == none) &&
  (!s.sweep.yields || s.othersClaim)

theorem queuesSound_of_check {s : State} (h : queuesCheck s = true) : s.QueuesSound := by
  simp only [queuesCheck, Bool.and_eq_true, decide_eq_true_eq, beq_iff_eq, Bool.or_eq_true, Bool.not_eq_true'] at h
  obtain ⟨⟨⟨⟨⟨⟨⟨⟨⟨⟨h1, h2⟩, h3⟩, h4⟩, h5⟩, h6⟩, h7⟩, h8⟩, h9⟩, h10⟩, h11⟩ := h
  refine ⟨h1, h2, h3, h4, h5, h6, h7, h8, fun party room => ?_, fun yields => ?_⟩
  rotate_left
  · rcases h11 with h11 | h11
    · rw [yields] at h11; cases h11
    · exact h11
  cases party
  · rcases h9 with h9 | h9
    · rw [room] at h9; cases h9
    · exact h9
  · rcases h10 with h10 | h10
    · rw [room] at h10; cases h10
    · exact h10

/-- A sound state with something in every block: window 0 at its last visit, window 63 staged to supersede it, window 5
in a retire's drain at age 15 with ticket 31 outstanding, a lookup queued and a verdict waiting, the timer one tick
before its period, and a walk at slot 0. -/
def busy : State :=
  { counted ((((withLookups (running State.reset 15 2 1) [entry 2 3 0xFFFFFFFF#32] [⟨2, 1, .backoff⟩]).setMode
      .active).setWin 0 { catchAll with reload := 255#8, remaining := 1#8 }).setWin 63
      (window (.staged (some 0)) 0xFFFFF#20 0xFFFFF#20 7#3 0x8000#16) |>.setWin 5 (retiring .host 15#4)) 31 15 5 with
    sweep := { walk := .walking 0 false, yields := false }, pending := [.visit, .ten] }

theorem busy_windows (n : Slot) :
    busy.win n = { catchAll with reload := 255#8, remaining := 1#8 } ∨
    busy.win n = window (.staged (some 0)) 0xFFFFF#20 0xFFFFF#20 7#3 0x8000#16 ∨
    busy.win n = retiring .host 15#4 ∨ busy.win n = Window.cleared .host none := by
  revert n; decide +kernel

theorem busy_records : busy.RecordsSound := by
  intro n
  rcases busy_windows n with h | h | h | h <;> rw [h] <;>
    simp [Window.Sound, window, catchAll, retiring, Window.cleared]

theorem busy_tickets : busy.TicketsSound := by unfold State.TicketsSound; decide +kernel

theorem busy_queues : busy.QueuesSound := queuesSound_of_check (by decide +kernel)

theorem busy_flight : busy.FlightSound := ⟨by decide +kernel, by decide +kernel⟩

theorem busy_timer : busy.TimerSound := by
  refine ⟨by decide +kernel, by decide +kernel, by decide +kernel, fun ticks h => ?_⟩
  have : (16 : Nat) = ticks := Option.some.inj h
  subst this; decide +kernel

theorem busy_walk : busy.WalkSound := fun h => absurd h (by decide +kernel)

theorem busy_targets : busy.TargetsSound := by
  intro n m t
  have h : ∀ n : Slot, busy.win n = window (.staged (some 0)) 0xFFFFF#20 0xFFFFF#20 7#3 0x8000#16 ∧ n = 63 ∨
      (busy.win n).target = none := by decide +kernel
  rcases h n with ⟨hn, rfl⟩ | hn <;> rcases h m with ⟨hm, rfl⟩ | hm <;> rw [hn] <;> simp_all [window, Window.target] <;>
    rintro rfl <;> decide

theorem witness_StepRunsFrontCommand :
    busy.pending = .visit :: [.ten] ∧ State.reset.pending = [] := by decide +kernel

theorem witness_StepKeepsRecords :
    busy.RecordsSound ∧ busy.TargetsSound ∧ ∃ t, step busy = .next t ∧ (t.win 0).isFree = true :=
  ⟨busy_records, busy_targets, after { busy with pending := [.ten] } .visit, rfl, by decide +kernel⟩

theorem witness_StepKeepsUseCounts : busy.TicketsSound ∧ ∃ t, step busy = .next t :=
  ⟨busy_tickets, _, rfl⟩

theorem witness_StepKeepsQueues : busy.QueuesSound ∧ ∃ t, step busy = .next t := ⟨busy_queues, _, rfl⟩

theorem witness_StepKeepsInFlight : busy.FlightSound ∧ ∃ t, step busy = .next t := ⟨busy_flight, _, rfl⟩

theorem witness_StepKeepsTimerAndWalk : busy.TimerSound ∧ busy.WalkSound ∧ ∃ t, step busy = .next t :=
  ⟨busy_timer, busy_walk, _, rfl⟩

theorem witness_TableCommandKeepsOtherPartysSlots :
    (∃ (s t : State) (n : Slot), (s.win n).owner ≠ .host ∧ exec (.rtr .host) s = .next t ∧ t.host ≠ s.host) ∧
    (∃ s t : State, exec .ten s = .next t ∧ t.table ≠ s.table) :=
  ⟨⟨inHost (State.reset.setWin 63 { catchAll with owner := .maint }) (command 0x13#8 0 63#20 []), _, 63,
      by decide +kernel, rfl, by decide +kernel⟩,
    ⟨inHost State.reset (command 0x21#8 0 0#20 []), _, rfl, by decide +kernel⟩⟩

theorem witness_TemplateStaysInPlace :
    ∃ s t : State, exec (.cmt .host) s = .next t ∧ (s.win 63).isStaged = true ∧ (t.win 63).isLive = true ∧
      (s.win 63).isFree = false ∧ (t.win 63).isFree = false :=
  ⟨inHost (State.reset.setWin 63 (window (.staged none) 0xFFFFF#20 0xFFFFF#20 7#3 0x8000#16)) (command 0x12#8 0 0#20 []),
    _, rfl, by decide +kernel, by decide +kernel, by decide +kernel, by decide +kernel⟩

theorem witness_PornLowHoldsThePart : ∃ s : State, s.pornLow = true := ⟨after busy .pornAssertion, rfl⟩

theorem witness_ClosedChannelsChangeNothing :
    (∃ s : State, s.frst = true) ∧ (∃ s : State, s.frst = false ∧ s.lookup.verdicts.length = 8) ∧
    (∃ s : State, s.frst = false ∧ s.lookup.verdicts = []) :=
  ⟨⟨{ busy with frst := true }, rfl⟩, ⟨withLookups State.reset [] (List.replicate 8 ⟨0, 0, .retry⟩), rfl, rfl⟩,
    ⟨State.reset, rfl, rfl⟩⟩

theorem witness_RequestDiscarded :
    ∃ (s : State) (q p : LookupRequest), s.pornLow = false ∧ s.frst = false ∧ s.lookup.verdicts.length < 8 ∧
      (q.requester, q.tag) ∈ s.lookup.inFlight ∧ (p.requester, p.tag) ∉ s.lookup.inFlight ∧ p.kindCode = 3#2 :=
  ⟨busy, ⟨2, 1, 0#32, 0#6, 0#2⟩, ⟨2, 0, 0#32, 0#6, 3#2⟩, by decide +kernel⟩

/-- Thirteen entries leave 3 places, one more than the reserve of 2; fourteen leave 2; sixteen leave none. -/
theorem witness_RequestAdmitted :
    ∃ (s : Fin 3 → State) (q : LookupRequest),
      (∀ k, (s k).pornLow = false ∧ (s k).frst = false ∧ (s k).lookup.verdicts.length < 8 ∧
        (q.requester, q.tag) ∉ (s k).lookup.inFlight ∧ ((s k).profile q.requester).urgency = .normal) ∧
      q.kindCode = 2#2 ∧ (s 0).lookup.reserve < 16 - (s 0).lookup.queue.length ∧
      (s 1).lookup.reserve = 16 - (s 1).lookup.queue.length ∧ 16 - (s 2).lookup.queue.length = 0 :=
  ⟨fun k => withLookups State.reset (List.replicate (match k with | 0 => 13 | 1 => 14 | 2 => 16) (entry 0 0 0#32)) [],
    ⟨15, 3, 0xFFFFFFFF#32, 63#6, 2#2⟩, by decide +kernel⟩

theorem witness_ArbiterPreference :
    (∃ s : State, s.arbiter.holder = none ∧ s.maintClaims = true ∧ s.sweep.walk ≠ .idle) ∧
    (∃ s : State, s.arbiter.holder = none ∧ s.maintClaims = false ∧ s.sweepClaims = true ∧ s.lookupClaims = true) ∧
    (∃ s : State, s.arbiter.holder = none ∧ s.maintClaims = false ∧ s.sweepClaims = false ∧ s.lookupClaims = true ∧
      s.hostClaims = true ∧ s.arbiter.hostWait = 7) ∧
    (∃ s : State, s.arbiter.holder = none ∧ s.maintClaims = false ∧ s.sweepClaims = false ∧ s.lookupClaims = true ∧
      s.hostClaims = true ∧ s.arbiter.hostWait = 8) ∧
    (∃ s : State, s.arbiter.holder = none ∧ s.maintClaims = false ∧ s.sweepClaims = false ∧ s.hostClaims = false ∧
      s.lookupClaims = true ∧ s.sweep.walk ≠ .idle) ∧
    (∃ s : State, s.arbiter.holder = none ∧ s.maintClaims = false ∧ s.sweepClaims = false ∧ s.lookupClaims = false ∧
      s.hostClaims = true) ∧
    (∃ s : State, s.arbiter.holder = none ∧ s.maintClaims = false ∧ s.sweepClaims = false ∧ s.lookupClaims = false ∧
      s.hostClaims = false) :=
  let claiming := inHost (withLookups State.reset [entry 0 0 0#32] []) (command 0x16#8 0 0#20 [])
  ⟨⟨inTool busy (command 0x16#8 0 0#20 []), by decide +kernel⟩, ⟨busy, by decide +kernel⟩,
    ⟨{ claiming with arbiter := ⟨none, 7⟩ }, by decide +kernel⟩, ⟨{ claiming with arbiter := ⟨none, 8⟩ }, by decide +kernel⟩,
    ⟨{ busy with sweep := { walk := .walking 63 false, yields := true } }, by decide +kernel⟩,
    ⟨inHost State.reset (command 0x16#8 0 0#20 []), by decide +kernel⟩, ⟨State.reset, by decide +kernel⟩⟩

/-! ### Lookups -/

/-- A lookup of requester 1 at the last byte of page 80105h, in the table of 01 section 1.4. -/
def looking (lengthCode : BitVec 6) : State :=
  withLookups choosing [{ entry 1 3 0x80105FFF#32 with lengthCode }] []

theorem witness_LookupSettledBeforeTheWindows :
    (∃ (s : State) (e : QueueEntry), s.LookupGranted e ∧ (s.profile e.requester).enabled = false) ∧
    (∃ (s : State) (e : QueueEntry), s.LookupGranted e ∧ (s.profile e.requester).enabled = true ∧ ¬ e.onOnePage ∧
      s.table.mode = .active ∧ s.Wins (pageOf e.address) e.requester 7) ∧
    (∃ (s : State) (e : QueueEntry), s.LookupGranted e ∧ (s.profile e.requester).enabled = true ∧ ¬ e.onOnePage ∧
      s.table.mode = .active ∧ ∀ n : Slot, s.matchesAt (pageOf e.address) e.requester n = false) ∧
    (∃ (s : State) (e : QueueEntry), s.LookupGranted e ∧ (s.profile e.requester).enabled = true ∧ ¬ e.onOnePage ∧
      s.table.mode = .boot) ∧
    (∃ (s : State) (e : QueueEntry), s.LookupGranted e ∧ (s.profile e.requester).enabled = true ∧ e.onOnePage ∧
      s.table.mode = .boot) := by
  refine ⟨⟨(looking 0#6).setProfile 1 ⟨false, .user, .normal⟩, { entry 1 3 0x80105FFF#32 with lengthCode := 0#6 }, ?_⟩,
    ⟨looking 1#6, { entry 1 3 0x80105FFF#32 with lengthCode := 1#6 }, ?_⟩,
    ⟨(withLookups State.reset [entry 1 3 0xFFFFFFFF#32] []).setMode .active, entry 1 3 0xFFFFFFFF#32, ?_⟩,
    ⟨(looking 1#6).setMode .boot, { entry 1 3 0x80105FFF#32 with lengthCode := 1#6 }, ?_⟩,
    ⟨(looking 0#6).setMode .boot, { entry 1 3 0x80105FFF#32 with lengthCode := 0#6 }, ?_⟩⟩ <;>
  · simp only [State.LookupGranted, QueueEntry.onOnePage, State.Wins]; decide +kernel

/-- The lookup that window 0 wins, with given rights and mode. -/
def deciding (mode : EnforceMode) (rights : Rights) : State :=
  (withLookups State.reset [entry 0 0 0#32] []).setMode .active |>.setWin 0
    { catchAll with policy := { Policy.cleared with user := rights, mode } }

theorem witness_LookupUnderWindow :
    ∃ e : QueueEntry, ∀ mode : EnforceMode, ∀ permitted : Bool,
      (∃ s : State, s.LookupGranted e ∧ (s.profile e.requester).enabled = true ∧ e.onOnePage ∧ s.table.mode = .active ∧
        s.Wins (pageOf e.address) e.requester 0 ∧
        (s.win 0).policy.permits (s.profile e.requester).privilege e.kind = permitted ∧ (s.win 0).policy.mode = mode ∧
        s.LowestFree 0) ∧
      (∃ s : State, s.LookupGranted e ∧ (s.profile e.requester).enabled = true ∧ e.onOnePage ∧ s.table.mode = .active ∧
        s.Wins (pageOf e.address) e.requester 0 ∧
        (s.win 0).policy.permits (s.profile e.requester).privilege e.kind = permitted ∧ (s.win 0).policy.mode = mode ∧
        ∀ k, s.ticket k ≠ .free) := by
  refine ⟨entry 0 0 0#32, fun mode permitted => ⟨⟨deciding mode ⟨permitted, false, false⟩, ?_⟩,
    ⟨noTickets (deciding mode ⟨permitted, false, false⟩), ?_⟩⟩⟩ <;>
  · cases mode <;> cases permitted <;>
      (simp only [State.LookupGranted, QueueEntry.onOnePage, State.Wins, State.LowestFree]; decide +kernel)

theorem witness_LookupUnderDefaultRecord :
    ∃ e : QueueEntry, ∀ mode : EnforceMode, ∀ permitted : Bool, ∃ s : State, s.LookupGranted e ∧
      (s.profile e.requester).enabled = true ∧ e.onOnePage ∧ s.table.mode = .active ∧
      (∀ n : Slot, s.matchesAt (pageOf e.address) e.requester n = false) ∧
      s.table.defaultRecord.permits (s.profile e.requester).privilege e.kind = permitted ∧
      s.table.defaultRecord.mode = mode := by
  refine ⟨entry 0 0 0#32, fun mode permitted => ⟨((withLookups State.reset [entry 0 0 0#32] []).setMode .active).setDefault
    { Policy.cleared with user := ⟨permitted, false, false⟩, mode }, ?_⟩⟩
  cases mode <;> cases permitted <;>
    (simp only [State.LookupGranted, QueueEntry.onOnePage]; decide +kernel)

theorem witness_VerdictDeparts :
    busy.pornLow = false ∧ busy.frst = false ∧ busy.lookup.verdicts = ⟨2, 1, .backoff⟩ :: [] ∧ busy.FlightSound :=
  ⟨rfl, rfl, rfl, busy_flight⟩

/-- `busy` with a ticket 0 that is an ORPHAN of requester 3, and two more tickets counted: 1 against window 0 and
2 against the DRAINING window 5. -/
def completing : State := counted (counted busy 1 3 0) 2 3 5 |>.setTicket 0 (.orphan 3)

theorem completing_queues : completing.QueuesSound := queuesSound_of_check (by decide +kernel)

theorem witness_CompletionAccepted :
    (∃ s : State, s.pornLow = false ∧ s.frst = false ∧ s.QueuesSound ∧ s.ticket 0 = .orphan 3 ∧
      s.ticket 1 = .counted 3 0 ∧ s.use 0 = 1 ∧ (s.win 0).isDraining = false ∧
      s.ticket 2 = .counted 3 5 ∧ s.use 5 = 2 ∧ (s.win 5).isDraining = true) ∧
    (∃ s : State, s.pornLow = false ∧ s.frst = false ∧ s.QueuesSound ∧ s.ticket 31 = .counted 15 5 ∧ s.use 5 = 1 ∧
      (s.win 5).isDraining = true) :=
  ⟨⟨completing, rfl, rfl, completing_queues, by decide +kernel⟩, ⟨busy, rfl, rfl, busy_queues, by decide +kernel⟩⟩

theorem witness_CompletionRefused :
    ∃ s : State, s.pornLow = false ∧ s.frst = false ∧ s.ticket 30 = .free ∧ s.ticket 0 = .orphan 3 ∧
      s.ticket 1 = .counted 3 0 ∧ (3 : Requester) ≠ 4 :=
  ⟨completing, by decide +kernel⟩

/-- One place of the Response Queue left, two slots owing the host, two owing the tool. -/
def draining : State :=
  (((withResponses State.reset (List.replicate 15 ⟨1, .ok, []⟩)).setWin 0 (retiring .host 0#4)).setWin 63
    (retiring .host 0#4)).setWin 1 (retiring .maint 0#4) |>.setWin 62 (retiring .maint 0#4)

theorem witness_FabricResetAndRelease :
    (∃ s : State, s.frst = false ∧ s.QueuesSound ∧ (s.win 0).isDraining = true ∧ (s.win 63).isDraining = true ∧
      s.host.responses.length = 15) ∧ (∃ s : State, s.frst = true) :=
  ⟨⟨draining, rfl, queuesSound_of_check (by decide +kernel), by decide +kernel⟩, ⟨{ busy with frst := true }, rfl⟩⟩

/-! ### Timer and sweep -/

theorem witness_RefclkTickCounts :
    (∃ s : State, s.pornLow = false ∧ s.timer.state = .stopped) ∧
    (∃ s : State, s.pornLow = false ∧ s.timer.state = .running ∧ s.timer.prescale = .off) ∧
    (∃ s : State, s.pornLow = false ∧ s.timer.state = .running ∧ s.timer.prescale.ticks = some 16 ∧
      s.timer.prescaleCount + 1 < 16) ∧
    (∃ s : State, s.pornLow = false ∧ s.timer.state = .running ∧ s.timer.prescale.ticks = some 16 ∧
      s.timer.prescaleCount + 1 = 16 ∧ s.timer.counter + 1 < s.timer.period) ∧
    (∃ s : State, s.pornLow = false ∧ s.timer.state = .running ∧ s.timer.prescale.ticks = some 16 ∧
      s.timer.prescaleCount + 1 = 16 ∧ s.timer.counter + 1 = s.timer.period) :=
  ⟨⟨State.reset, by decide⟩, ⟨{ State.reset with timer := { State.reset.timer with state := .running } }, by decide⟩,
    ⟨running State.reset 14 65535 0, by decide⟩, ⟨running State.reset 15 65535 65533, by decide⟩,
    ⟨running State.reset 15 65535 65534, by decide⟩⟩

theorem witness_SweepRequestIsTheRestOfThePeriod :
    (∃ s : State, s.pornLow = false ∧ s.timer.state = .stopped) ∧
    (∃ s : State, s.pornLow = false ∧ s.timer.state = .running ∧ s.timer.prescale.ticks = some 16 ∧ s.TimerSound) :=
  ⟨⟨State.reset, rfl, rfl⟩, ⟨busy, rfl, rfl, rfl, busy_timer⟩⟩

/-- A walk at a slot. -/
def walking (n : Slot) (endMark : Bool) (s : State) : State := { s with sweep := { walk := .walking n endMark, yields := false } }

theorem walkGoesOn_last : WalkGoesOn 63 .idle :=
  ⟨fun _ => rfl, fun next h => absurd next.isLt (by have : next.val = 64 := h; omega)⟩

theorem walkGoesOn_first : WalkGoesOn 0 (.walking 1 false) :=
  ⟨fun h => absurd h (by decide), fun next h => by
    have : next = 1 := Fin.ext h
    rw [this]⟩

theorem witness_VisitAgesLease :
    ∃ (n : Slot) (walk : Walk), WalkGoesOn n walk ∧ ∀ fresh : Bool, ∀ remaining ∈ [1#8, 2#8], ∃ s : State,
      s.VisitGranted n false ∧ (s.win n).state = .live ∧ (s.win n).reload ≠ 0#8 ∧ (s.win n).fresh = fresh ∧
      (s.win n).remaining = remaining := by
  refine ⟨63, .idle, walkGoesOn_last, fun fresh remaining h =>
    ⟨walking 63 false (State.reset.setWin 63 { catchAll with reload := 2#8, remaining, fresh }), ?_⟩⟩
  simp only [List.mem_cons, List.not_mem_nil, or_false] at h
  rcases h with rfl | rfl <;> cases fresh <;> (unfold State.VisitGranted; decide +kernel)

theorem witness_VisitAgesDrain :
    ∃ (n : Slot) (walk : Walk) (cause : DrainCause), WalkGoesOn n walk ∧ ∀ age ∈ [2#4, 3#4, 15#4], ∃ s : State,
      s.VisitGranted n false ∧ s.QueuesSound ∧ (s.win n).state = .draining cause age ∧ s.timer.drainLimit = 4#4 := by
  refine ⟨0, _, .retire, walkGoesOn_first, fun age h => ⟨walking 0 false (State.reset.setWin 0 (retiring .host age)), ?_⟩⟩
  simp only [List.mem_cons, List.not_mem_nil, or_false] at h
  rcases h with rfl | rfl | rfl <;>
    exact ⟨by unfold State.VisitGranted; decide +kernel, queuesSound_of_check (by decide +kernel), by decide +kernel⟩

theorem witness_VisitPassesOver :
    (∃ (n : Slot) (walk : Walk), WalkGoesOn n walk ∧
      (∃ s : State, s.VisitGranted n false ∧ (s.win n).isFree = true) ∧
      (∃ s : State, s.VisitGranted n false ∧ (s.win n).isStaged = true) ∧
      (∃ s : State, s.VisitGranted n false ∧ (s.win n).state = .live ∧ (s.win n).reload = 0#8)) ∧
    (∃ (s : State) (n : Slot), s.VisitGranted n true) := by
  refine ⟨⟨63, .idle, walkGoesOn_last, ⟨walking 63 false State.reset, ?_⟩,
    ⟨walking 63 false (State.reset.setWin 63 (window (.staged none) 0#20 0#20 0#3 0#16)), ?_⟩,
    ⟨walking 63 false (State.reset.setWin 63 catchAll), ?_⟩⟩, ⟨walking 0 true State.reset, 0, ?_⟩⟩ <;>
  · unfold State.VisitGranted; decide +kernel

theorem witness_LeaseLastsReloadPlusOneVisits :
    ∃ (s : State) (n : Slot), (s.win n).state = .live ∧ (s.win n).reload ≠ 0#8 ∧
      (s.win n).remaining = (s.win n).reload ∧ (s.win n).fresh = true :=
  ⟨State.reset.setWin 63 { catchAll with reload := 255#8, remaining := 255#8, fresh := true }, 63, by decide +kernel⟩


/-! ### Host commands -/

/-- A header written to an IDLE assembler with 7 and with 8 commands queued. -/
def filled (k : Nat) : State :=
  { State.reset with host := { State.reset.host with commands := List.replicate k ⟨command 0x17#8 3 0#20 [], .user⟩ } }

theorem witness_CommandHeaderTaken :
    ∃ one four : Word, wordsOn .host (one.extractLsb' 24 8) = 1 ∧ wordsOn .host (four.extractLsb' 24 8) = 4 ∧
      ∀ k ∈ [7, 8], (filled k).pornLow = false ∧ (filled k).host.assembler = .idle ∧
        (filled k).host.commands.length = k :=
  ⟨0x13100003#32, 0x15200004#32, by decide +kernel⟩

theorem witness_CommandDataTaken :
    ∀ remaining ∈ [1, 2], ∃ s : State, s.pornLow = false ∧
      s.host.assembler = .collecting (command 0x15#8 2 4#20 []) remaining ∧
      ∃ t : State, t.pornLow = false ∧ t.host.assembler = .discard remaining := by
  intro remaining _
  exact ⟨State.reset.setAssembler (.collecting (command 0x15#8 2 4#20 []) remaining), rfl, rfl,
    State.reset.setAssembler (.discard remaining), rfl, rfl⟩

theorem witness_RefusedAtTaking :
    (∃ (s : State) (c : HostCommand), s.pornLow = false ∧ s.host.commands.head? = some c ∧ s.mayTake = true ∧
      symOn .host c.command.number = none) ∧
    (∃ (s : State) (c : Command), s.pornLow = false ∧ s.maint.command = some c ∧ s.maint.response = none ∧
      symOn .maint c.number = none) :=
  ⟨⟨queued State.reset (command 0x50#8 1 0#20 []) .supervisor, ⟨command 0x50#8 1 0#20 [], .supervisor⟩, by decide +kernel⟩,
    ⟨inTool State.reset (command 0x23#8 1 0#20 []), command 0x23#8 1 0#20 [], by decide +kernel⟩⟩

/-- The host's engine is idle, a response place is free and no owed response of the host waits. -/
def mayTakeAny (s : State) : Bool :=
  !s.pornLow && s.hostHand.isNone && s.responsePlaceFree && (s.lowestWaiting .host).isNone

theorem taken_queued {s : State} {c : Command} {privilege : Privilege} {sym : CommandSym} (h : mayTakeAny s = true)
    (hc : symOn .host c.number = some sym) : (queued s c privilege).Taken sym ⟨c, privilege⟩ := by
  simp only [mayTakeAny, Bool.and_eq_true, Bool.not_eq_true'] at h
  refine ⟨h.1.1.1, rfl, ?_, hc⟩
  show (s.hostHand.isNone && true && s.responsePlaceFree && (s.lowestWaiting .host).isNone) = true
  rw [h.1.1.2, h.1.2, h.2]; rfl

/-- Every command that the host's engine answers at its taking is taken somewhere, at either privilege. -/
theorem witness_taken (privilege : Privilege) :
    ∀ row ∈ [(CommandSym.sdf, 0x20#8), (.ten, 0x21#8), (.tds, 0x22#8), (.spr, 0x30#8), (.srv, 0x31#8), (.rvs, 0x32#8),
        (.tcf, 0x40#8), (.tst, 0x41#8), (.tsp, 0x42#8)],
      ∃ (s : State) (c : HostCommand), s.Taken row.1 c ∧ c.privilege = privilege := by
  intro row h
  refine ⟨queued State.reset (command row.2 1 0#20 []) privilege, ⟨command row.2 1 0#20 [], privilege⟩,
    taken_queued (by decide +kernel) ?_, rfl⟩
  revert row
  decide +kernel

theorem witness_RefusedAtTaking_privilege :
    ∀ sym ∈ [CommandSym.sdf, .ten, .tds, .spr, .srv, .rvs, .tcf, .tst, .tsp],
      ∃ (s : State) (c : HostCommand), s.Taken sym c ∧ c.privilege = .user := by
  intro sym h
  simp only [List.mem_cons, List.not_mem_nil, or_false] at h
  rcases h with rfl | rfl | rfl | rfl | rfl | rfl | rfl | rfl | rfl <;> exact witness_taken .user (_, _) (by simp; rfl)

theorem witness_SetProfile :
    (∃ (s : State) (c : HostCommand), s.Taken .spr c ∧ c.privilege = .user) ∧
    (∃ (s : State) (c : HostCommand), s.Taken .spr c ∧ c.privilege = .supervisor) :=
  ⟨witness_taken .user (.spr, 0x30#8) (by simp), witness_taken .supervisor (.spr, 0x30#8) (by simp)⟩

/-- [SRV] with a number of NORMAL entries queued. -/
def reserving (reserve : BitVec 20) (normal : Nat) : State :=
  queued (withLookups State.reset (List.replicate normal (entry 0 0 0#32)) []) (command 0x31#8 1 reserve []) .supervisor

theorem witness_SetReserve :
    ∀ row ∈ [(9#20, 0), (8#20, 9), (8#20, 8), (0#20, 16)],
      (reserving row.1 row.2).Taken .srv ⟨command 0x31#8 1 row.1 [], .supervisor⟩ :=
  fun _ _ => taken_queued (c := command 0x31#8 1 _ []) (show mayTakeAny State.reset = true by decide +kernel)
    (show symOn .host 0x31#8 = _ by decide)

theorem witness_ReadViolation :
    ∃ (s : State) (c : HostCommand), s.Taken .rvs c ∧ c.privilege = .supervisor ∧
      (15 : Requester).val = (c.command.operand.extractLsb' 0 4).toNat ∧ (s.violation 15).isSome = true ∧
      s.violation 14 = none := by
  refine ⟨queued (State.reset.setViolation 15 (some ⟨0x40001000#32, 63#6, .fetch, .slot 63, .watched, true⟩))
    (command 0x32#8 1 15#20 []) .supervisor, ⟨command 0x32#8 1 15#20 [], .supervisor⟩,
    taken_queued (by decide +kernel) (by decide), by decide +kernel⟩

/-- [TCF] with an operand and a data word. -/
def configuring (s : State) (operand : BitVec 20) (period : Word) : State :=
  queued s (command 0x40#8 1 operand [period]) .supervisor

theorem witness_TimerCommands :
    (configuring (running State.reset 0 1 0) 0x401#20 1#32).Taken .tcf ⟨command 0x40#8 1 0x401#20 [1#32], .supervisor⟩ ∧
    ∀ row ∈ [(0x404#20, 1#32), (0x405#20, 1#32), (0x404#20, 0xFFFF0000#32), (0xF00#20, 0xFFFF#32)],
      (configuring State.reset row.1 row.2).Taken .tcf ⟨command 0x40#8 1 row.1 [row.2], .supervisor⟩ :=
  ⟨taken_queued (by decide +kernel) (by decide),
    fun _ _ => taken_queued
      (c := command 0x40#8 1 _ _) (by decide +kernel) (show symOn .host 0x40#8 = _ by decide)⟩

theorem witness_TimerCommands_start :
    (∃ (s : State) (c : HostCommand), c.privilege = .supervisor ∧ s.Taken .tst c ∧ s.timer.state = .stopped) ∧
    (∃ (s : State) (c : HostCommand), c.privilege = .supervisor ∧ s.Taken .tst c ∧ s.timer.state = .running) ∧
    (∃ (s : State) (c : HostCommand), c.privilege = .supervisor ∧ s.Taken .tsp c) := by
  exact ⟨⟨queued State.reset (command 0x41#8 1 0#20 []) .supervisor, ⟨command 0x41#8 1 0#20 [], .supervisor⟩, rfl,
      taken_queued (by decide +kernel) (by decide), rfl⟩,
    ⟨queued (running State.reset 0 1 0) (command 0x41#8 1 0#20 []) .supervisor, ⟨command 0x41#8 1 0#20 [], .supervisor⟩,
      rfl, taken_queued (by decide +kernel) (by decide), rfl⟩,
    ⟨queued State.reset (command 0x42#8 1 0#20 []) .supervisor, ⟨command 0x42#8 1 0#20 [], .supervisor⟩, rfl,
      taken_queued (by decide +kernel) (by decide)⟩⟩

/-! ### Responses and events -/

/-- A full Response Queue whose head has a number of its words read. -/
def answered (data : List Word) (wordsRead : Nat) (s : State) : State :=
  { s with host := { s.host with responses := ⟨1, .ok, data⟩ :: List.replicate 15 ⟨2, .ok, []⟩, wordsRead } }

theorem witness_ResponseWordRead :
    (∃ s : State, s.pornLow = false ∧ s.host.responses = []) ∧
    (∃ (s : State) (r : Response) (rest : List Response), s.pornLow = false ∧ s.host.responses = r :: rest ∧
      s.QueuesSound ∧ s.host.wordsRead = 0 ∧ s.host.wordsRead < r.data.length) ∧
    (∃ (s : State) (r : Response) (rest : List Response), s.pornLow = false ∧ s.host.responses = r :: rest ∧
      s.QueuesSound ∧ s.host.wordsRead = r.data.length ∧ ∀ n : Slot, (s.win n).waitingResponse .host = none) ∧
    (∃ (s : State) (r : Response) (rest : List Response), s.pornLow = false ∧ s.host.responses = r :: rest ∧
      s.QueuesSound ∧ s.host.wordsRead = r.data.length ∧ LowestWaits s .host 63 ⟨9, .forced, []⟩) := by
  refine ⟨⟨State.reset, rfl, rfl⟩, ⟨answered [5#32, 6#32] 0 State.reset, _, _, rfl, rfl,
    queuesSound_of_check (by decide +kernel), rfl, by decide⟩, ⟨answered [5#32, 6#32] 2 State.reset, _, _, rfl, rfl,
    queuesSound_of_check (by decide +kernel), rfl, by decide +kernel⟩,
    ⟨answered [] 0 (State.reset.setWin 63 (held .host)), _, _, rfl, rfl, queuesSound_of_check (by decide +kernel), rfl, ?_⟩⟩
  unfold LowestWaits; decide +kernel

theorem witness_OwedResponseEnters :
    (∃ s : State, s.pornLow = false ∧ LowestWaits s .host 63 ⟨9, .forced, []⟩ ∧ s.roomFor .host = true) ∧
    (∃ s : State, s.pornLow = false ∧ LowestWaits s .maint 0 ⟨9, .forced, []⟩ ∧ s.roomFor .maint = true) ∧
    (∃ s : State, s.pornLow = false ∧ LowestWaits s .host 63 ⟨9, .forced, []⟩ ∧ s.roomFor .host = false) := by
  refine ⟨⟨State.reset.setWin 63 (held .host), ?_⟩, ⟨State.reset.setWin 0 (held .maint), ?_⟩,
    ⟨withResponses (State.reset.setWin 63 (held .host)) full, ?_⟩⟩ <;>
  · unfold LowestWaits; decide +kernel

theorem witness_EventEnableDrivesInt :
    ∃ s : State, s.pornLow = false ∧ s.int = true ∧ (after s (.eventEnableWrite 0x1F#32)).int = false :=
  ⟨{ State.reset with host := { State.reset.host with ownership := true, enables := 0x20#6 } }, by decide +kernel⟩

theorem witness_StickyEventsCleared :
    ∃ s : State, s.pornLow = false ∧ s.host.drainForced = true ∧ s.host.protocolEvent = true ∧ s.host.ownership = true :=
  ⟨{ State.reset with host := { State.reset.host with
      drainForced := true, protocolEvent := true, ownership := true, protocolStatus := some .commandOverflow } }, by decide⟩

theorem witness_RegistersShowTheState : busy.pornLow = false ∧ busy.QueuesSound := ⟨rfl, busy_queues⟩

theorem witness_PortReset : ∃ s : State, s.pornLow = false ∧ s.hostHand.isSome = true ∧ (s.win 63).owed.isSome = true :=
  ⟨inHost (State.reset.setWin 63 (held .host)) (command 0x16#8 4 9#20 []), by decide +kernel⟩

/-! ### Table commands -/

/-- LIVE and the tool's. -/
def toolWindow : Window := { catchAll with owner := .maint }

/-- [STG] of the tool in slot 63, with slot 32 LIVE and the tool's, and any four words. -/
def stagingTool (data : List Word) : State :=
  inTool ((State.reset.setWin 63 (Window.cleared .maint none)).setWin 32 toolWindow) (command 0x10#8 15 63#20 data)

/-- The host's engine, once it holds a command, is granted the table. -/
def hostGranted (s : State) : Bool := !s.pornLow && (inHost s (command 0#8 0 0#20 [])).grantee == some .host

theorem granted_inHost {s : State} {c : Command} {sym : CommandSym} (h : hostGranted s = true)
    (hc : symOn .host c.number = some sym) : (inHost s c).Granted .host sym c := by
  simp only [hostGranted, Bool.and_eq_true, Bool.not_eq_true', beq_iff_eq] at h
  exact ⟨h.1, rfl, hc, h.2⟩

/-- The tool's engine, once it holds a command of its path, is granted the table. -/
theorem granted_inTool {s : State} {c : Command} {sym : CommandSym} (h1 : s.pornLow = false)
    (h2 : s.arbiter.holder = none) (h3 : s.maint.response = none) (hc : symOn .maint c.number = some sym) :
    (inTool s c).Granted .maint sym c := by
  refine ⟨h1, rfl, hc, ?_⟩
  have claims : (inTool s c).maintClaims = true := by
    show ((symOn .maint c.number).isSome && s.maint.response.isNone) = true
    rw [hc, h3]; rfl
  have holder : (inTool s c).arbiter.holder = none := h2
  simp [State.grantee, claims, holder, engineOf]

theorem granted_stagingTool (data : List Word) : (stagingTool data).Granted .maint .stg (command 0x10#8 15 63#20 data) :=
  granted_inTool rfl rfl rfl (show symOn .maint 0x10#8 = some .stg by decide)

theorem template_all : TemplateAccepted 0xFFFFFFF0#32 0xFFFFFFFA#32 := by
  intro i h1 h2 h
  have : ∀ i : Fin 32, 12 ≤ i.val → (0xFFFFFFFA#32).getLsbD i.val = true := by decide
  exact this ⟨i, h2⟩ h1

theorem supplies_32 : SuppliesTarget 0xFFFFFFF0#32 0xFFFFFFFA#32 (some 32) := by
  unfold SuppliesTarget
  rw [if_pos (by decide)]
  exact ⟨32, rfl, by decide⟩

theorem witness_StageWindow :
    ∃ (s : State) (c : Command), s.Granted .maint .stg c ∧ (s.win c.slot).owner = .maint ∧
      (s.win c.slot).isFree = true ∧ (s.win c.slot).owed = none ∧
      StagedFieldsAccepted (c.data.getD 0 0#32) (c.data.getD 1 0#32) (c.data.getD 2 0#32) (c.data.getD 3 0#32) ∧
      TemplateAccepted (c.data.getD 0 0#32) (c.data.getD 3 0#32) ∧
      SuppliesTarget (c.data.getD 0 0#32) (c.data.getD 3 0#32) (some 32) ∧ TargetAccepted s .maint c.slot 32 := by
  refine ⟨stagingTool [0xFFFFFFF0#32, 0x0007FD77#32, 0x0007FFFF#32, 0xFFFFFFFA#32], _, granted_stagingTool _,
    by decide +kernel, by decide +kernel, by decide +kernel, ?_, template_all, supplies_32, ?_⟩
  · unfold StagedFieldsAccepted PolicyAccepted MembershipAccepted; decide +kernel
  · unfold TargetAccepted; decide +kernel

/-- A staged record with a reserved mode, one with a base bit outside its mask, and one that names its own slot. -/
theorem witness_StageRefused :
    (∃ (s : State) (c : Command), s.Granted .maint .stg c ∧ (s.win c.slot).owner = .maint ∧
      (s.win c.slot).isFree = true ∧ (s.win c.slot).owed = none ∧
      ¬ StagedFieldsAccepted (c.data.getD 0 0#32) (c.data.getD 1 0#32) (c.data.getD 2 0#32) (c.data.getD 3 0#32)) ∧
    (∃ (s : State) (c : Command), s.Granted .maint .stg c ∧ (s.win c.slot).owner = .maint ∧
      (s.win c.slot).isFree = true ∧ (s.win c.slot).owed = none ∧
      StagedFieldsAccepted (c.data.getD 0 0#32) (c.data.getD 1 0#32) (c.data.getD 2 0#32) (c.data.getD 3 0#32) ∧
      ¬ TemplateAccepted (c.data.getD 0 0#32) (c.data.getD 3 0#32)) ∧
    (∃ (s : State) (c : Command), s.Granted .maint .stg c ∧ (s.win c.slot).owner = .maint ∧
      (s.win c.slot).isFree = true ∧ (s.win c.slot).owed = none ∧
      StagedFieldsAccepted (c.data.getD 0 0#32) (c.data.getD 1 0#32) (c.data.getD 2 0#32) (c.data.getD 3 0#32) ∧
      TemplateAccepted (c.data.getD 0 0#32) (c.data.getD 3 0#32) ∧
      SuppliesTarget (c.data.getD 0 0#32) (c.data.getD 3 0#32) (some 63) ∧ ¬ TargetAccepted s .maint c.slot 63) := by
  refine ⟨⟨stagingTool [0#32, 0x200#32, 0#32, 0#32], _, granted_stagingTool _, by decide +kernel, by decide +kernel,
    by decide +kernel, ?_⟩, ⟨stagingTool [0x1000#32, 0#32, 0#32, 0#32], _, granted_stagingTool _, by decide +kernel,
    by decide +kernel, by decide +kernel, ?_, ?_⟩, ⟨stagingTool [0xF#32, 0#32, 0#32, 0xB#32], _, granted_stagingTool _,
    by decide +kernel, by decide +kernel, by decide +kernel, ?_, ?_, ?_, ?_⟩⟩
  · unfold StagedFieldsAccepted PolicyAccepted MembershipAccepted; decide +kernel
  · unfold StagedFieldsAccepted PolicyAccepted MembershipAccepted; decide +kernel
  · exact fun h => absurd (h 12 (by decide) (by decide) (by decide)) (by decide)
  · unfold StagedFieldsAccepted PolicyAccepted MembershipAccepted; decide +kernel
  · intro i h1 h2
    have : ∀ i : Fin 32, 12 ≤ i.val → (0xF#32).getLsbD i.val = true → (0xB#32).getLsbD i.val = true := by decide
    exact this ⟨i, h2⟩ h1
  · unfold SuppliesTarget
    exact ⟨63, rfl, by decide⟩
  · unfold TargetAccepted; decide +kernel

theorem witness_AbandonWindow :
    ∃ (s : State) (c : Command), s.Granted .host .abn c ∧ (s.win c.slot).owner = .host ∧ (s.win c.slot).isStaged = true := by
  refine ⟨inHost (State.reset.setWin 63 (window (.staged none) 0#20 0#20 0#3 0#16)) (command 0x11#8 1 63#20 []),
    command 0x11#8 1 63#20 [], granted_inHost (by decide +kernel) (by decide), by decide +kernel⟩

/-- Window 63 staged to supersede window 0. -/
def superseding (w : Window) : State :=
  inHost ((State.reset.setWin 63 (window (.staged (some 0)) 0#20 0#20 0#3 0#16)).setWin 0 w) (command 0x12#8 1 0#20 [])

theorem superseding_target (w : Window) (hw : ∀ t, w.state ≠ .staged (some t)) (n t : Slot)
    (h : ((superseding w).win n).state = .staged (some t)) : n = 63 ∧ t = 0 := by
  simp only [superseding, inHost, State.setHand_win, State.setWin_win] at h
  split at h
  · exact absurd h (hw t)
  · split at h
    · next h63 => exact ⟨h63, by simpa [window, eq_comm] using h⟩
    · next h0 h63 =>
      have : ∀ n : Slot, (State.reset.win n).state = .free := by decide +kernel
      rw [this] at h; cases h

theorem witness_CommitWindows :
    ∃ (s : State) (c : Command), s.Granted .host .cmt c ∧
      (∀ n t : Slot, (s.win n).state = .staged (some t) → (s.win n).owner = .host →
        (s.win t).state = .live ∧ (s.win t).owner = .host) ∧ (s.win 63).state = .staged (some 0) := by
  refine ⟨superseding catchAll, command 0x12#8 1 0#20 [], granted_inHost (by decide +kernel) (by decide), fun n t h _ => ?_,
    by decide +kernel⟩
  obtain ⟨-, rfl⟩ := superseding_target catchAll (by intro t; simp [catchAll, window]) n t h
  decide +kernel

theorem witness_CommitRefused :
    ∃ (s : State) (c : Command), s.Granted .host .cmt c ∧ (s.win 63).state = .staged (some 0) ∧
      (s.win 63).owner = .host ∧ ¬ ((s.win 0).state = .live ∧ (s.win 0).owner = .host) ∧
      (∀ m u : Slot, m < 63 → (s.win m).state = .staged (some u) → (s.win m).owner = .host →
        (s.win u).state = .live ∧ (s.win u).owner = .host) := by
  refine ⟨superseding toolWindow, command 0x12#8 1 0#20 [], granted_inHost (by decide +kernel) (by decide),
    by decide +kernel, by decide +kernel, by decide +kernel, fun m u hm h _ => ?_⟩
  obtain ⟨rfl, -⟩ := superseding_target toolWindow (by intro t; simp [toolWindow, catchAll, window]) m u h
  exact absurd hm (by decide)

/-- A host's table command that names slot 63, which holds window w with use count `use`. -/
def on63 (number : BitVec 8) (operand : BitVec 20) (data : List Word) (w : Window) (use : Nat) : State :=
  inHost ((State.reset.setWin 63 w).setUse 63 use) (command number 1 operand data)

theorem witness_RetireWindow :
    ∀ use ∈ [0, 1, 32], ∃ c : Command, (on63 0x13#8 63#20 [] catchAll use).Granted .host .rtr c ∧
      ((on63 0x13#8 63#20 [] catchAll use).win c.slot).owner = .host ∧
      ((on63 0x13#8 63#20 [] catchAll use).win c.slot).state = .live ∧ (on63 0x13#8 63#20 [] catchAll use).use c.slot = use := by
  intro use h
  refine ⟨command 0x13#8 1 63#20 [], granted_inHost (c := command 0x13#8 1 63#20 []) ?_ (by decide), ?_⟩ <;>
  · revert use; decide +kernel

/-- The four codes of the reload action. -/
theorem witness_RenewLease :
    ∀ operand ∈ [0x0003F#20, 0x3FD3F#20, 0x0023F#20, 0x0033F#20],
      (on63 0x14#8 operand [] catchAll 0).Granted .host .rnw (command 0x14#8 1 operand []) ∧
      (command 0x14#8 1 operand []).slot = 63 ∧ ((on63 0x14#8 operand [] catchAll 0).win 63).owner = .host ∧
      ((on63 0x14#8 operand [] catchAll 0).win 63).state = .live := by
  intro operand h
  refine ⟨granted_inHost (c := command 0x14#8 1 operand []) (by decide +kernel) (show symOn .host 0x14#8 = _ by decide),
    ?_, by simp [on63, inHost, catchAll, window, Window.cleared], by simp [on63, inHost, catchAll, window]⟩
  simp only [List.mem_cons, List.not_mem_nil, or_false] at h
  rcases h with rfl | rfl | rfl | rfl <;> decide

/-- [MOD] of an own LIVE window 63: an accepted and a refused policy word, the same for the membership word, and a
reserved selector. -/
theorem witness_ModifyWord :
    ∀ data ∈ [[0#32, 0x77#32, 0xFFFFFFFF#32], [0#32, 0x80000#32, 0xFFFFFFFF#32], [1#32, 0x7FFFF#32, 0xFFFFFFFF#32],
        [1#32, 0x80000#32, 0x80000#32], [2#32, 0#32, 0#32], [3#32, 0#32, 0#32]],
      (on63 0x15#8 63#20 data catchAll 0).Granted .host .mod (command 0x15#8 1 63#20 data) ∧
      ((on63 0x15#8 63#20 data catchAll 0).win 63).owner = .host ∧
      ((on63 0x15#8 63#20 data catchAll 0).win 63).isLive = true :=
  fun data _ => ⟨granted_inHost (c := command 0x15#8 1 63#20 data) (by decide +kernel)
    (show symOn .host 0x15#8 = _ by decide), by simp [on63, inHost, catchAll, window, Window.cleared],
    by simp [on63, inHost, catchAll, window, Window.isLive]⟩

/-- The premises of [MOD] on old and new words are met: by the words that the mask gives. -/
theorem witness_ModifyWord_words :
    (∃ new : Word, ∀ i : Nat, new.getLsbD i = if (0xFFFFFFFF#32 : Word).getLsbD i = true then (0x77#32 : Word).getLsbD i
      else catchAll.policy.word.getLsbD i) ∧
    (∃ old new : Word, old.extractLsb' 0 16 = catchAll.members ∧ old.extractLsb' 16 3 = catchAll.rank ∧
      MembershipAccepted old ∧ ∀ i : Nat, new.getLsbD i =
        if (0x80000#32 : Word).getLsbD i = true then (0x80000#32 : Word).getLsbD i else old.getLsbD i) := by
  have masked : ∀ old value mask : Word, ∀ i : Nat, (maskedWord old value mask).getLsbD i =
      if mask.getLsbD i = true then value.getLsbD i else old.getLsbD i := by
    intro old value mask i
    by_cases hi : i < 32
    · simp only [maskedWord, BitVec.getLsbD_or, BitVec.getLsbD_and, BitVec.getLsbD_not, hi, decide_true, Bool.true_and]
      cases mask.getLsbD i <;> simp
    · have out : ∀ w : Word, w.getLsbD i = false := fun w => BitVec.getLsbD_of_ge w i (by omega)
      rw [out, out, out, out]; rfl
  exact ⟨⟨_, masked _ _ _⟩, ⟨0xFFFF#32, _, by decide, by decide, by unfold MembershipAccepted; decide, masked _ _ _⟩⟩

theorem witness_QueryAndOwnershipReport :
    (∃ (s : State) (c : Command), s.Granted .maint .qry c ∧ (s.win c.slot).isDraining = true) ∧
    (∃ (s : State) (c : Command), s.Granted .host .own c) := by
  refine ⟨⟨inTool (State.reset.setWin 63 (retiring .host 15#4)) (command 0x16#8 3 63#20 []), command 0x16#8 3 63#20 [],
      granted_inTool rfl rfl rfl (by decide), by decide +kernel⟩,
    ⟨inHost State.reset (command 0x23#8 3 0#20 []), command 0x23#8 3 0#20 [], granted_inHost (by decide +kernel) (by decide)⟩⟩

theorem witness_ReadExpired :
    (∃ (s : State) (c : Command), s.Granted .host .rex c ∧ s.expired 63 = true ∧ (s.win 63).owner = .host ∧
      ∀ m : Slot, m < 63 → s.expired m = true → (s.win m).owner ≠ .host) ∧
    (∃ (s : State) (c : Command), s.Granted .host .rex c ∧ s.expired 0 = true ∧
      ∀ n : Slot, s.expired n = true → (s.win n).owner ≠ .host) := by
  refine ⟨⟨inHost (((State.reset.setWin 0 toolWindow).setExpired 0 true).setExpired 63 true) (command 0x17#8 3 0#20 []),
    command 0x17#8 3 0#20 [], granted_inHost (by decide +kernel) (by decide), by decide +kernel⟩, ⟨inHost ((State.reset.setWin 0 toolWindow).setExpired 0 true) (command 0x17#8 3 0#20 []),
    command 0x17#8 3 0#20 [], granted_inHost (by decide +kernel) (by decide), by decide +kernel⟩⟩

/-- The five commands against a slot of the tool, a FREE, a held, a STAGED, a LIVE and a DRAINING slot of the host. -/
theorem witness_OwnerThenStateRefused :
    ∀ row ∈ [(CommandSym.stg, 0x10#8), (.abn, 0x11#8), (.rtr, 0x13#8), (.rnw, 0x14#8), (.mod, 0x15#8)],
      ∀ w ∈ [toolWindow, Window.cleared .host none, window (.staged none) 0#20 0#20 0#3 0#16, catchAll,
          retiring .host 0#4],
        (on63 row.2 63#20 [] w 1).Granted .host row.1 (command row.2 1 63#20 []) ∧ (on63 row.2 63#20 [] w 1).win 63 = w := by
  intro row h w hw
  refine ⟨granted_inHost (c := command row.2 1 63#20 []) ?_ ?_, ?_⟩
  · revert w; decide +kernel
  · revert row; decide +kernel
  · revert w; simp [on63, inHost]

/-- A slot that a host owed response holds withdraws the host's claim; the tool's own held slot does not. -/
theorem witness_OwnerThenStateRefused_held :
    ∃ (s : State) (c : Command), s.Granted .host .stg c ∧ (s.win c.slot).owner = .host ∧ (s.win c.slot).isFree = true ∧
      (s.win c.slot).owed ≠ none := by
  refine ⟨inHost (State.reset.setWin 63 { held .maint with owner := .host }) (command 0x10#8 1 63#20 []),
    command 0x10#8 1 63#20 [], granted_inHost (by decide +kernel) (by decide), by decide +kernel⟩

theorem witness_DefaultRecordAndTableMode :
    (∃ (s : State) (c : Command), s.Granted .host .sdf c ∧ PolicyAccepted (c.data.getD 0 0#32)) ∧
    (∃ (s : State) (c : Command), s.Granted .host .sdf c ∧ ¬ PolicyAccepted (c.data.getD 0 0#32)) ∧
    (∃ (s : State) (c : Command), s.Granted .host .ten c) ∧
    (∃ (s : State) (c : Command), s.Granted .host .tds c) := by
  refine ⟨⟨inHost State.reset (command 0x20#8 1 0#20 [0x7FD77#32]), command 0x20#8 1 0#20 [0x7FD77#32],
      granted_inHost (by decide +kernel) (by decide), ?_⟩,
    ⟨inHost State.reset (command 0x20#8 1 0#20 [0x80000000#32]), command 0x20#8 1 0#20 [0x80000000#32],
      granted_inHost (by decide +kernel) (by decide), ?_⟩,
    ⟨inHost State.reset (command 0x21#8 1 0#20 []), command 0x21#8 1 0#20 [], granted_inHost (by decide +kernel) (by decide)⟩,
    ⟨inHost State.reset (command 0x22#8 1 0#20 []), command 0x22#8 1 0#20 [], granted_inHost (by decide +kernel) (by decide)⟩⟩ <;>
  · unfold PolicyAccepted; decide

/-! ### The Maintenance Link -/

theorem witness_CommandFrameArrives :
    (∃ s : State, s.pornLow = false ∧ s.maint.command = none ∧ s.maint.response = none ∧
      ∀ n : Slot, (s.win n).waitingResponse .maint = none) ∧
    (∃ s : State, s.pornLow = false ∧ s.maint.command ≠ none) ∧
    (∃ s : State, s.pornLow = false ∧ s.maint.response ≠ none) ∧
    (∃ s : State, s.pornLow = false ∧ s.maint.command = none ∧ s.maint.response = none ∧
      ∃ n : Slot, (s.win n).waitingResponse .maint ≠ none) :=
  ⟨⟨State.reset, by decide +kernel⟩, ⟨inTool State.reset (command 0x12#8 0 0#20 []), by decide⟩,
    ⟨{ State.reset with maint := { State.reset.maint with response := some ⟨0, .ok, []⟩ } }, by decide⟩,
    ⟨State.reset.setWin 63 (held .maint), rfl, rfl, rfl, 63, by decide +kernel⟩⟩

theorem witness_ResponseRegisterRead :
    (∃ s : State, s.pornLow = false ∧ s.maint.response = none ∧ ∀ n : Slot, (s.win n).waitingResponse .maint = none) ∧
    (∃ s : State, s.pornLow = false ∧ s.maint.response.isSome = true ∧ LowestWaits s .maint 63 ⟨9, .forced, []⟩) := by
  refine ⟨⟨State.reset, by decide +kernel⟩, ⟨{ State.reset.setWin 63 (held .maint) with
    maint := { State.reset.maint with response := some ⟨6, .ok, [1#32, 2#32, 3#32, 4#32]⟩ } }, ?_⟩⟩
  unfold LowestWaits; decide +kernel

/-- [GRT] and [RCL] of one slot, of all 64 slots, and of a range out of order. -/
theorem witness_SlotsMove :
    ∀ row ∈ [(CommandSym.grt, 0x50#8), (.rcl, 0x51#8)],
      ∀ operand : BitVec 20,
        (inTool State.reset (command row.2 1 operand [])).Granted .maint row.1 (command row.2 1 operand []) := by
  intro row h operand
  refine granted_inTool (c := command row.2 1 operand []) rfl rfl rfl ?_
  simp only [List.mem_cons, List.not_mem_nil, or_false] at h
  rcases h with rfl | rfl
  · show symOn .maint 0x50#8 = some .grt
    decide
  · show symOn .maint 0x51#8 = some .rcl
    decide

theorem witness_SlotsMove_range :
    (0x03F3F#20).extractLsb' 0 6 = 63#6 ∧ (0x03F3F#20).extractLsb' 8 6 = 63#6 ∧ (0x03F00#20).extractLsb' 0 6 = 0#6 ∧
    (0x03F00#20).extractLsb' 8 6 = 63#6 ∧ (0x00001#20).extractLsb' 0 6 = 1#6 ∧ (0x00001#20).extractLsb' 8 6 = 0#6 := by
  decide

end Sys2Proof.Tests
end

section
/-!
The arbiter's preference (R124). Where no maintenance claim and no sweep claim is present, the choice is between the
lookup and the host, and only there does the host wait count matter.
-/
namespace Sys2Proof.Machine

variable {s : State}

/-- The Sweep Engine is second in the order: only maintenance is preferred over it, at any host wait count (R124). -/
theorem State.grantee_of_sweepClaims (free : s.arbiter.holder = none) (noMaint : s.maintClaims = false)
    (sweep : s.sweepClaims = true) : s.grantee = some .sweep := by
  simp [State.grantee, free, noMaint, sweep]

/-- The choice left to the lookup and the host: the host is ahead when aged or alone, else the lookup (R124). -/
theorem State.grantee_of_no_maint_no_sweep (free : s.arbiter.holder = none) (noMaint : s.maintClaims = false)
    (noSweep : s.sweepClaims = false) :
    s.grantee = if s.hostClaims = true ∧ (s.arbiter.hostWait = 8 ∨ s.lookupClaims = false) then some .host
      else if s.lookupClaims = true then some .lookup else none := by
  simp [State.grantee, free, noMaint, noSweep, Config.ageLimit]

end Sys2Proof.Machine
end

section
open Sys2Proof Sys2Proof.Machine

/-- Settles O17, row by row of R124's table: maintenance and the sweep by their places in the order, the other rows by
the choice between the lookup and the host. -/
theorem arbiterPreference : Obligations.ArbiterPreference := by
  intro s free
  refine ⟨fun maint => s.grantee_maint.mpr ⟨free, maint⟩,
    fun noMaint sweep => State.grantee_of_sweepClaims free noMaint sweep, ?both, ?lookupAlone, ?hostAlone, ?noClaim⟩ <;>
    intro noMaint noSweep <;> rw [State.grantee_of_no_maint_no_sweep free noMaint noSweep]
  case both =>
    intro lookup host
    constructor
    · intro young
      have notAged : s.arbiter.hostWait ≠ 8 := by omega
      simp [lookup, notAged]
    · intro aged
      simp [host, aged]
  case lookupAlone =>
    intro noHost lookup
    simp [noHost, lookup]
  case hostAlone =>
    intro noLookup host
    simp [noLookup, host]
  case noClaim =>
    intro noLookup noHost
    simp [noLookup, noHost]

end

section
/-!
The event kinds and INT (R149, R151). Each computed kind is pending where its source stands in the state, and the pending
set holds the six kinds at the bits that the enable set has them at, so INT is read off kind by kind.
-/
namespace Sys2Proof.Machine

variable {s : State}

theorem State.responsePending_iff : s.responsePending = true ↔ s.host.responses ≠ [] := by
  simp [State.responsePending]

theorem State.expiryPending_iff :
    s.expiryPending = true ↔ ∃ n : Slot, s.expired n = true ∧ (s.win n).owner = .host := by
  simp [State.expiryPending, allSlots]

theorem State.violationPending_iff : s.violationPending = true ↔ ∃ r : Requester, s.violation r ≠ none := by
  simp [State.violationPending, Option.isSome_iff_ne_none]

/-- The place of each event kind in the pending set, RESPONSE at bit 0 to OWNERSHIP at bit 5 (R184). -/
theorem State.pendingBits_getLsbD :
    s.pendingBits.getLsbD 0 = s.responsePending ∧ s.pendingBits.getLsbD 1 = s.expiryPending ∧
    s.pendingBits.getLsbD 2 = s.violationPending ∧ s.pendingBits.getLsbD 3 = s.host.drainForced ∧
    s.pendingBits.getLsbD 4 = s.host.protocolEvent ∧ s.pendingBits.getLsbD 5 = s.host.ownership := by
  unfold State.pendingBits
  -- `rw` sees through the width 6 to the sum of widths that the append lemma wants, where `simp` does not
  refine ⟨?_, ?_, ?_, ?_, ?_, ?_⟩ <;> (repeat rw [BitVec.getLsbD_append]) <;> simp

/-- The intersection of two sets of bits is not empty where some place holds a bit of both. -/
theorem bitVec_and_ne_zero_iff {w : Nat} {x y : BitVec w} :
    x &&& y ≠ 0#w ↔ ∃ k < w, x.getLsbD k = true ∧ y.getLsbD k = true := by
  simp [BitVec.eq_of_getLsbD_eq_iff]

/-- Outside PORn low, INT is asserted where the pending and the enable set meet (R151). -/
theorem State.int_iff_of_powered (powered : s.pornLow = false) :
    s.int = true ↔ ∃ k < 6, s.pendingBits.getLsbD k = true ∧ s.host.enables.getLsbD k = true := by
  rw [← bitVec_and_ne_zero_iff]
  simp [State.int, powered]

/-- A supervisor write to EVENT ENABLE outside PORn low (R151). -/
theorem exec_eventEnableWrite_of_powered (word : Word) (powered : s.pornLow = false) :
    exec (.eventEnableWrite word) s = .next (s.writeEnables word) := by
  show Host.Outcome.next (s.whilePowered (s.writeEnables word)) = _
  rw [s.whilePowered_powered _ powered]

end Sys2Proof.Machine
end

section
open Sys2Proof Sys2Proof.Machine

/-- Settles O41: the write by its row's meaning, INT by the six places where the pending and the enable set can meet. -/
theorem eventEnableDrivesInt : Obligations.EventEnableDrivesInt := by
  intro s word powered
  refine ⟨exec_eventEnableWrite_of_powered word powered, ?_⟩
  obtain ⟨response, expiry, violation, drainForced, protocol, ownership⟩ := s.pendingBits_getLsbD
  rw [State.int_iff_of_powered powered, ← State.responsePending_iff, ← State.expiryPending_iff,
    ← State.violationPending_iff, ← response, ← expiry, ← violation, ← drainForced, ← protocol, ← ownership]
  simp only [Nat.exists_lt_succ_right, Nat.not_lt_zero, false_and, exists_false, false_or, or_assoc]

end

section
/-!
Commands answered at their taking (R141, R142): what the answer does to the state, which of the two answers a taken
command gets, and what [SPR] makes of the profiles (R170).
-/
namespace Sys2Proof.Machine

variable {s : State}

/-- Of the Host Port an answer at the taking changes the two queues alone. -/
theorem State.answerTaken_host (r : Response) :
    (s.answerTaken r).host = { s.host with
      responses := s.host.responses ++ [r], commands := (s.answerTaken r).host.commands } :=
  (s.dropHead.place .host r).takeInHand_host

/-- Outside the Host Port and the command in hand an answer at the taking changes nothing. -/
theorem State.answerTaken_rest (r : Response) :
    { s.answerTaken r with host := s.host, hostHand := s.hostHand } = s :=
  congrArg (fun t : State => { t with host := s.host }) (s.dropHead.place .host r).takeInHand_rest

/-- The frame of an answered command whose effect was on the profiles alone, stated for any profiles put in their place. -/
theorem State.answerTaken_rest_profiles (r : Response) (profiles : Vector Profile 16) :
    { s.answerTaken r with host := s.host, hostHand := s.hostHand, profiles := profiles } =
      { s with profiles := profiles } :=
  congrArg (fun t : State => { t with profiles := profiles }) (State.answerTaken_rest r)

@[simp] theorem State.answerTaken_profiles (r : Response) : (s.answerTaken r).profiles = s.profiles := by
  simp [State.answerTaken]

@[simp] theorem State.answerTaken_profile (r : Response) (q : Requester) : (s.answerTaken r).profile q =
    s.profile q := by
  simp [State.profile]

/-- A taken command is refused with PRIVILEGE where its privilege is missing, else it has its effect and answer. -/
theorem State.Taken.runAtTaking {sym : CommandSym} {c : HostCommand} (taken : s.Taken sym c)
    (effect : Command → State → State × Response) :
    s.whilePowered (s.runAtTaking sym effect) =
      if sym.supervisorOnly = true ∧ c.privilege = .user then s.answerTaken (c.command.reply .privilege)
      else (effect c.command s).1.answerTaken (effect c.command s).2 := by
  obtain ⟨powered, head, mayTake, number⟩ := taken
  obtain ⟨rest, queue⟩ := List.head?_eq_some_iff.mp head
  simp [s.whilePowered_powered _ powered, State.runAtTaking, queue, mayTake, number]

/-- The requester that a command names is the one whose number is in operand bits 3 to 0 (R182). -/
theorem Command.eq_requester_iff (c : Command) (r : Requester) :
    r = c.requester ↔ r.val = (c.operand.extractLsb' 0 4).toNat := by
  have inRange : (c.operand.extractLsb' 0 4).toNat < 16 := (c.operand.extractLsb' 0 4).isLt
  rw [Fin.ext_iff, Command.requester, nibbleField, Fin.val_ofNat, Nat.mod_eq_of_lt inRange]

/-- [SPR] written at user privilege (R170). -/
theorem State.Taken.exec_spr_user {c : HostCommand} (taken : s.Taken .spr c) (user : c.privilege = .user) :
    exec .spr s = .next (s.answerTaken (c.command.reply .privilege)) := by
  show Host.Outcome.next (s.whilePowered (s.runAtTaking .spr sprEffect)) = _
  rw [taken.runAtTaking, if_pos ⟨rfl, user⟩]

/-- [SPR] written at supervisor privilege (R170). -/
theorem State.Taken.exec_spr_supervisor {c : HostCommand} (taken : s.Taken .spr c)
    (supervisor : c.privilege = .supervisor) :
    exec .spr s =
      .next ((s.setProfile c.command.requester c.command.profile).answerTaken (c.command.reply .ok)) := by
  show Host.Outcome.next (s.whilePowered (s.runAtTaking .spr sprEffect)) = _
  rw [taken.runAtTaking, if_neg (by simp [supervisor]), sprEffect]

end Sys2Proof.Machine
end

section
open Sys2Proof Sys2Proof.Machine

/-- Settles O34, by the privilege that the command was written at: refused on the state as it is, or answered on the
state with the named profile replaced. -/
theorem setProfile : Obligations.SetProfile := by
  intro s c taken
  cases privilege : c.privilege with
  | user =>
    exact ⟨_, taken.exec_spr_user privilege, fun _ => ⟨State.answerTaken_profiles _, State.answerTaken_host _⟩,
      nofun, State.answerTaken_rest_profiles _ _⟩
  | supervisor =>
    refine ⟨_, taken.exec_spr_supervisor privilege, nofun,
      fun _ => ⟨State.answerTaken_host _, fun r => ?_⟩, State.answerTaken_rest_profiles _ _⟩
    rw [State.answerTaken_profile, State.setProfile_profile]
    exact if_congr (c.command.eq_requester_iff r) rfl rfl

end

section
/-!
What a command can do, said once. `State.Becomes` lists the meanings of the 44 commands with the conditions under which
they act peeled off; every invariant is shown over these cases, and not over the commands.
-/
namespace Sys2Proof.Machine

/-- The operations of the table commands that both parties have, each on slots of its own party (R73). -/
inductive PartyCommand : (Party → Command → State → State × Option Response) → Prop
  | stg : PartyCommand stgOperation
  | abn : PartyCommand abnOperation
  | cmt : PartyCommand cmtOperation
  | rtr : PartyCommand rtrOperation
  | rnw : PartyCommand rnwOperation
  | mod : PartyCommand modOperation
  | qry : PartyCommand qryOperation
  | rex : PartyCommand rexOperation

/-- The operations of all table commands, with the party whose engine carries each out (R73, R122). -/
inductive TableCommand : Party → (Party → Command → State → State × Option Response) → Prop
  | ofParty (party : Party) {operation : Party → Command → State → State × Option Response}
      (row : PartyCommand operation) : TableCommand party operation
  | sdf : TableCommand .host sdfOperation
  | ten : TableCommand .host tenOperation
  | tds : TableCommand .host tdsOperation
  | own : TableCommand .host ownOperation
  | grt : TableCommand .maint grtOperation
  | rcl : TableCommand .maint rclOperation

/-- The effects of the commands carried out at their taking (R141). -/
inductive TakingEffect : (Command → State → State × Response) → Prop
  | spr : TakingEffect sprEffect
  | srv : TakingEffect srvEffect
  | rvs : TakingEffect rvsEffect
  | tcf : TakingEffect tcfEffect
  | tst : TakingEffect tstEffect
  | tsp : TakingEffect tspEffect

/-- What the state may become by one command. -/
inductive State.Becomes (s : State) : State → Prop
  | stays : s.Becomes s
  | poweredOn (straps : Straps) : s.Becomes (s.powerOn straps)
  | pornFell : s.Becomes { s with pornLow := true }
  | frstReleased : s.Becomes { s with frst := false }
  | fabricReset : s.Becomes { s.resetFabric with frst := true }
  | requestArrived (q : LookupRequest) (ready : s.requestReady = true) : s.Becomes (s.arrive q)
  | lookupDecided (e : QueueEntry) (rest : List QueueEntry) (head : s.lookup.queue = e :: rest)
      (granted : s.grantee = some .lookup) : s.Becomes (s.decideLookup e)
  | verdictDeparted : s.Becomes s.departVerdict
  | ticketCompleted (k : TicketNo) (r : Requester) : s.Becomes (s.complete k r)
  | ticked : s.Becomes s.tick
  | periodElapsed : s.Becomes s.elapsePeriod
  | slotVisited (n : Slot) (endMark : Bool) (walk : s.sweep.walk = .walking n endMark)
      (granted : s.grantee = some .sweep) : s.Becomes (s.visit n endMark)
  | commandWritten (privilege : Privilege) (word : Word) : s.Becomes (s.writeCommand privilege word)
  | tableCommand (party : Party) (operation : Party → Command → State → State × Option Response) (c : Command)
      (row : TableCommand party operation) (hand : s.inHand party = some c)
      (granted : s.grantee = some (engineOf party)) :
      s.Becomes ((operation party c (s.grantTo (engineOf party))).1.finishCommand party
        (operation party c (s.grantTo (engineOf party))).2)
  | answeredAtTaking (effect : Command → State → State × Response) (c : Command) (row : TakingEffect effect)
      (mayTake : s.mayTake = true) : s.Becomes ((effect c s).1.answerTaken (effect c s).2)
  | refusedAtTaking (r : Response) (mayTake : s.mayTake = true) : s.Becomes (s.answerTaken r)
  | toolAnswered : s.Becomes s.answerUnknownTool
  | busRead (word : Word) : s.Becomes (s.putReadData word)
  | responseRead (word : Word) : s.Becomes (s.advanceResponse.putReadData word)
  | hostOwedEntered : s.Becomes (s.admitOwed .host).takeInHand
  | toolOwedEntered : s.Becomes (s.admitOwed .maint)
  | stickyCleared (word : Word) : s.Becomes (s.clearSticky word)
  | enablesWritten (word : Word) : s.Becomes (s.writeEnables word)
  | portReset : s.Becomes s.resetPort
  | frameArrived (frame : Frame) : s.Becomes (s.frameArrives frame)
  | responseCaptured : s.Becomes s.captureResponse
  | freeCaptured : s.Becomes s.captureFree
  | linkReset : s.Becomes s.resetLink

namespace State.Becomes

variable {s : State}

/-- While PORn is low the state stays, which is one of the cases. -/
theorem whilePowered {t : State} (h : s.Becomes t) : s.Becomes (s.whilePowered t) := by
  cases low : s.pornLow with
  | true => rw [s.whilePowered_low t low]; exact .stays
  | false => rw [s.whilePowered_powered t low]; exact h

/-- A choice between two cases is a case. -/
theorem ite {p : Prop} [Decidable p] {t u : State} (ht : p → s.Becomes t) (hu : s.Becomes u) :
    s.Becomes (if p then t else u) := by
  split
  · next h => exact ht h
  · exact hu

theorem runGranted {party : Party} {operation : Party → Command → State → State × Option Response}
    (sym : CommandSym) (row : TableCommand party operation) : s.Becomes (s.runGranted party sym operation) := by
  obtain h | ⟨c, hand, -, granted, h⟩ := s.runGranted_cases party sym operation <;> rw [h]
  · exact .stays
  · exact .tableCommand party operation c row hand granted

theorem runAtTaking {effect : Command → State → State × Response} (sym : CommandSym) (row : TakingEffect effect) :
    s.Becomes (s.runAtTaking sym effect) := by
  unfold State.runAtTaking
  split
  · exact .stays
  · next c _ _ =>
    refine ite (fun taken => ?_) .stays
    have mayTake : s.mayTake = true := (Bool.and_eq_true _ _ ▸ taken).1
    exact ite (fun _ => .refusedAtTaking _ mayTake) (.answeredAtTaking effect c.command row mayTake)

theorem runSupervisor {operation : Party → Command → State → State × Option Response} (sym : CommandSym)
    (row : TableCommand .host operation) : s.Becomes (s.runSupervisor sym operation) := by
  unfold State.runSupervisor
  refine ite (fun _ => runGranted sym row) ?_
  unfold State.refuseUserPrivilege
  split
  · exact .stays
  · refine ite (fun taken => .refusedAtTaking _ ?_) .stays
    simp only [Bool.and_eq_true] at taken
    exact taken.1.1

theorem hostWrite (register : HostRegister) (privilege : Privilege) (word : Word) :
    s.Becomes (s.hostWrite register privilege word) := by
  refine whilePowered ?_
  split
  · exact .commandWritten _ word
  · exact .stickyCleared word
  · exact .enablesWritten word
  · exact ite (fun _ => .portReset) .stays
  all_goals exact .stays

theorem answerUnknownHost : s.Becomes s.answerUnknownHost := by
  unfold State.answerUnknownHost
  split
  · exact .stays
  · refine ite (fun taken => .refusedAtTaking _ ?_) .stays
    simp only [Bool.and_eq_true] at taken
    exact taken.1

theorem runLookup : s.Becomes s.runLookup := by
  unfold State.runLookup
  split
  · exact .stays
  · next e rest head => exact ite (fun granted => .lookupDecided e rest head (by simpa using granted)) .stays

theorem runVisit : s.Becomes s.runVisit := by
  unfold State.runVisit
  split
  · exact .stays
  · next n endMark walk => exact ite (fun granted => .slotVisited n endMark walk (by simpa using granted)) .stays

theorem responseReadOnBus : s.Becomes ((s.whilePowered s.advanceResponse).putReadData (s.hostRead .response)) := by
  cases low : s.pornLow with
  | true => rw [s.whilePowered_low _ low]; exact .busRead _
  | false => rw [s.whilePowered_powered _ low]; exact .responseRead _

theorem linkUpdate (code : BitVec 6) (frame : Frame) : s.Becomes (s.linkUpdate code frame) := by
  unfold State.linkUpdate
  split
  · exact whilePowered (.frameArrived frame)
  all_goals exact .stays

theorem linkCapture (code : BitVec 6) : s.Becomes (s.linkCapture code) := by
  unfold State.linkCapture
  split
  · exact ite (fun _ => .freeCaptured) .responseCaptured
  all_goals exact .stays

end State.Becomes

/-- Every command's meaning is one of the cases, whatever the state it is carried out on. -/
theorem exec_becomes (i : Instr) (s : State) : ∃ t, exec i s = .next t ∧ s.Becomes t := by
  cases i with
  | powerOnReset straps => exact ⟨_, rfl, .poweredOn straps⟩
  | lookupRequest q => exact ⟨_, rfl, .ite (.requestArrived q) .stays⟩
  | lookup => exact ⟨_, rfl, .whilePowered .runLookup⟩
  | verdictDeparture => exact ⟨_, rfl, .ite (fun _ => .verdictDeparted) .stays⟩
  | completionNotice k r => exact ⟨_, rfl, .ite (fun _ => .ticketCompleted k r) .stays⟩
  | fabricReset => exact ⟨_, rfl, .ite (fun _ => .stays) .fabricReset⟩
  | frstRelease => exact ⟨_, rfl, .frstReleased⟩
  | sweepRequest => exact ⟨_, rfl, .whilePowered .periodElapsed⟩
  | visit => exact ⟨_, rfl, .whilePowered .runVisit⟩
  | commandWord privilege word => exact ⟨_, rfl, .hostWrite .command privilege word⟩
  | unknownCommand party =>
    cases party with
    | host => exact ⟨_, rfl, .whilePowered .answerUnknownHost⟩
    | maint => exact ⟨_, rfl, .whilePowered .toolAnswered⟩
  | stg party => exact ⟨_, rfl, .whilePowered (.runGranted .stg (.ofParty party .stg))⟩
  | abn party => exact ⟨_, rfl, .whilePowered (.runGranted .abn (.ofParty party .abn))⟩
  | cmt party => exact ⟨_, rfl, .whilePowered (.runGranted .cmt (.ofParty party .cmt))⟩
  | rtr party => exact ⟨_, rfl, .whilePowered (.runGranted .rtr (.ofParty party .rtr))⟩
  | rnw party => exact ⟨_, rfl, .whilePowered (.runGranted .rnw (.ofParty party .rnw))⟩
  | mod party => exact ⟨_, rfl, .whilePowered (.runGranted .mod (.ofParty party .mod))⟩
  | qry party => exact ⟨_, rfl, .whilePowered (.runGranted .qry (.ofParty party .qry))⟩
  | rex party => exact ⟨_, rfl, .whilePowered (.runGranted .rex (.ofParty party .rex))⟩
  | sdf => exact ⟨_, rfl, .whilePowered (.runSupervisor .sdf .sdf)⟩
  | ten => exact ⟨_, rfl, .whilePowered (.runSupervisor .ten .ten)⟩
  | tds => exact ⟨_, rfl, .whilePowered (.runSupervisor .tds .tds)⟩
  | own => exact ⟨_, rfl, .whilePowered (.runGranted .own .own)⟩
  | spr => exact ⟨_, rfl, .whilePowered (.runAtTaking .spr .spr)⟩
  | srv => exact ⟨_, rfl, .whilePowered (.runAtTaking .srv .srv)⟩
  | rvs => exact ⟨_, rfl, .whilePowered (.runAtTaking .rvs .rvs)⟩
  | tcf => exact ⟨_, rfl, .whilePowered (.runAtTaking .tcf .tcf)⟩
  | tst => exact ⟨_, rfl, .whilePowered (.runAtTaking .tst .tst)⟩
  | tsp => exact ⟨_, rfl, .whilePowered (.runAtTaking .tsp .tsp)⟩
  | grt => exact ⟨_, rfl, .whilePowered (.runGranted .grt .grt)⟩
  | rcl => exact ⟨_, rfl, .whilePowered (.runGranted .rcl .rcl)⟩
  | responseRead => exact ⟨_, rfl, .responseReadOnBus⟩
  | owedResponse party =>
    cases party with
    | host => exact ⟨_, rfl, .whilePowered .hostOwedEntered⟩
    | maint => exact ⟨_, rfl, .whilePowered .toolOwedEntered⟩
  | clearDrainForced word => exact ⟨_, rfl, .hostWrite .eventPending .supervisor word⟩
  | clearProtocol word => exact ⟨_, rfl, .hostWrite .eventPending .supervisor word⟩
  | clearOwnership word => exact ⟨_, rfl, .hostWrite .eventPending .supervisor word⟩
  | eventEnableWrite word => exact ⟨_, rfl, .hostWrite .eventEnable .supervisor word⟩
  | portReset => exact ⟨_, rfl, .hostWrite .portControl .supervisor 1#32⟩
  | ignoredWrite register privilege word => exact ⟨_, rfl, .hostWrite register privilege word⟩
  | commandFrame frame => exact ⟨_, rfl, .linkUpdate LinkRegister.command.code frame⟩
  | responseRegisterRead => exact ⟨_, rfl, .linkCapture LinkRegister.response.code⟩
  | linkReset => exact ⟨_, rfl, .linkReset⟩
  | refclkTick => exact ⟨_, rfl, .whilePowered .ticked⟩
  | pornAssertion => exact ⟨_, rfl, .pornFell⟩

/-- What a command leaves is one of the cases. -/
theorem becomes_of_exec {i : Instr} {s t : State} (h : exec i s = .next t) : s.Becomes t := by
  obtain ⟨u, hu, becomes⟩ := exec_becomes i s
  cases h.symm.trans hu
  exact becomes

/-- A property that every case keeps, and that does not look at the queue of waiting commands, is kept by every step. -/
theorem step_keeps {P : State → Prop} (queue : ∀ s rest, P s → P { s with pending := rest })
    (keeps : ∀ s t, s.Becomes t → P s → P t) {s t : State} (hs : P s) (h : step s = .next t) : P t := by
  unfold step at h
  split at h
  · cases h; exact hs
  · next c rest _ => exact keeps _ t (becomes_of_exec h) (queue s rest hs)

end Sys2Proof.Machine
end

section
/-!
What the shared operations and the cases of `State.Becomes` leave alone. Most of them write the windows, the two ports
and the command in hand alone, which `OnlyWindowsAndPorts` says once.
-/
namespace Sys2Proof.Machine

/-- Of the state t differs from s at most in the windows, the two ports and the host's command in hand. -/
def OnlyWindowsAndPorts (s t : State) : Prop :=
  ∃ windows host hand maint,
    t = { s with table := { s.table with windows := windows }, host := host, hostHand := hand, maint := maint }

namespace OnlyWindowsAndPorts

variable {s t u : State}

theorem refl (s : State) : OnlyWindowsAndPorts s s := ⟨_, _, _, _, rfl⟩

theorem trans (h : OnlyWindowsAndPorts s t) (k : OnlyWindowsAndPorts t u) : OnlyWindowsAndPorts s u := by
  obtain ⟨_, _, _, _, rfl⟩ := h
  obtain ⟨_, _, _, _, rfl⟩ := k
  exact ⟨_, _, _, _, rfl⟩

theorem arbiter (h : OnlyWindowsAndPorts s t) : t.arbiter = s.arbiter := by
  obtain ⟨_, _, _, _, rfl⟩ := h; rfl

theorem lookup (h : OnlyWindowsAndPorts s t) : t.lookup = s.lookup := by
  obtain ⟨_, _, _, _, rfl⟩ := h; rfl

theorem pool (h : OnlyWindowsAndPorts s t) : t.pool = s.pool := by
  obtain ⟨_, _, _, _, rfl⟩ := h; rfl

theorem timer (h : OnlyWindowsAndPorts s t) : t.timer = s.timer := by
  obtain ⟨_, _, _, _, rfl⟩ := h; rfl

theorem sweep (h : OnlyWindowsAndPorts s t) : t.sweep = s.sweep := by
  obtain ⟨_, _, _, _, rfl⟩ := h; rfl

theorem items (h : OnlyWindowsAndPorts s t) : KeepsTableItems s t := by
  obtain ⟨_, _, _, _, rfl⟩ := h; exact ⟨rfl, rfl, rfl, rfl⟩

theorem mode (h : OnlyWindowsAndPorts s t) : t.table.mode = s.table.mode := by
  obtain ⟨_, _, _, _, rfl⟩ := h; rfl

end OnlyWindowsAndPorts

variable (s : State)

/-! ### Shared operations -/

theorem State.setWin_only (n : Slot) (w : Window) : OnlyWindowsAndPorts s (s.setWin n w) := ⟨_, _, _, _, rfl⟩

theorem State.place_only (party : Party) (r : Response) : OnlyWindowsAndPorts s (s.place party r) := by
  cases party <;> exact ⟨_, _, _, _, rfl⟩

theorem State.takeInHand_only : OnlyWindowsAndPorts s s.takeInHand := by
  obtain h | ⟨c, rest, -, -, -, h⟩ := s.takeInHand_cases <;> rw [h] <;> exact ⟨_, _, _, _, rfl⟩

theorem State.admitOwed_only (party : Party) : OnlyWindowsAndPorts s (s.admitOwed party) := by
  obtain h | ⟨n, r, -, -, h⟩ := s.admitOwed_cases party <;> rw [h]
  · exact .refl s
  · exact (s.setWin_only n _).trans (State.place_only _ party r)

/-- What one entry of an owed response keeps, the entries of all of them keep. -/
theorem State.admitAllOwed_induct {P : State → Prop} (party : Party) (enter : ∀ t, P t → P (t.admitOwed party))
    (start : P s) : P (s.admitAllOwed party) := by
  unfold State.admitAllOwed
  induction allSlots generalizing s with
  | nil => exact start
  | cons n slots ih => exact ih _ (enter s start)

theorem State.admitAllOwed_only (party : Party) : OnlyWindowsAndPorts s (s.admitAllOwed party) :=
  s.admitAllOwed_induct (P := OnlyWindowsAndPorts s) party (fun t h => h.trans (t.admitOwed_only party)) (.refl s)

/-- The ending of a drain, by whether its slot owes a response. -/
theorem State.endDrain_cases (n : Slot) (outcome : DrainOutcome) :
    ((s.win n).owed = none ∧ s.endDrain n outcome = s.setWin n ((s.win n).endDrain outcome)) ∨
    ∃ o, (s.win n).owed = some o ∧
      s.endDrain n outcome = (s.setWin n ((s.win n).endDrain outcome)).admitOwed o.party := by
  unfold State.endDrain
  cases (s.win n).owed with
  | none => exact .inl ⟨rfl, rfl⟩
  | some o => exact .inr ⟨o, rfl, rfl⟩

theorem State.endDrain_only (n : Slot) (outcome : DrainOutcome) : OnlyWindowsAndPorts s (s.endDrain n outcome) := by
  obtain ⟨-, h⟩ | ⟨o, -, h⟩ := s.endDrain_cases n outcome <;> rw [h]
  · exact s.setWin_only n _
  · exact (s.setWin_only n _).trans (State.admitOwed_only _ o.party)

theorem State.settleYield_only : ∃ yields, s.settleYield = { s with sweep := { s.sweep with yields := yields } } :=
  ⟨_, rfl⟩

theorem State.mapWindows_only (f : Slot → Window → Window) : OnlyWindowsAndPorts s (s.mapWindows f) :=
  ⟨Vector.ofFn fun n => f n (s.win n), s.host, s.hostHand, s.maint, rfl⟩

theorem State.answerTaken_only (r : Response) : OnlyWindowsAndPorts s (s.answerTaken r) :=
  .trans ⟨_, _, _, _, rfl⟩ (State.takeInHand_only (s.dropHead.place .host r))

/-- Finishing a table command changes the ports and the arbiter's holder. -/
theorem State.finishCommand_only (party : Party) (response : Option Response) :
    OnlyWindowsAndPorts s.release (s.finishCommand party response) := by
  cases party with
  | host =>
    cases response <;> exact .trans ⟨_, _, _, _, rfl⟩ (State.takeInHand_only _)
  | maint => cases response <;> exact ⟨_, _, _, _, rfl⟩

theorem State.finishCommand_windows (party : Party) (response : Option Response) :
    (s.finishCommand party response).table = s.table := by
  cases party <;> cases response <;> simp [State.finishCommand]

/-! ### The Check Port -/

/-- What a request's arrival does: a protocol occurrence, or an admission. -/
theorem State.arrive_cases (q : LookupRequest) :
    (∃ kind, s.arrive q = s.raiseProtocol kind) ∨
    ∃ kind, (q.requester, q.tag) ∉ s.lookup.inFlight ∧ s.arrive q = s.admitRequest q kind := by
  unfold State.arrive
  split
  · exact .inl ⟨_, rfl⟩
  · next fresh =>
    split
    · exact .inl ⟨_, rfl⟩
    · next kind _ => exact .inr ⟨kind, by simpa using fresh, rfl⟩

/-- An admission queues the request by its arrival class, or answers BACKOFF (R32, R33). -/
theorem State.admitRequest_cases (q : LookupRequest) (kind : AccessKind) :
    (s.admits (s.profile q.requester).urgency = true ∧
      s.admitRequest q kind = { s with lookup := { s.lookup with
        queue := s.lookup.queue ++
          [⟨q.requester, q.tag, q.address, q.lengthCode, kind, (s.profile q.requester).urgency⟩]
        inFlight := s.lookup.inFlight ++ [(q.requester, q.tag)] } }) ∨
    (s.admits (s.profile q.requester).urgency = false ∧
      s.admitRequest q kind = State.settleYield { s with lookup := { s.lookup with
        verdicts := s.lookup.verdicts ++ [⟨q.requester, q.tag, .backoff⟩]
        inFlight := s.lookup.inFlight ++ [(q.requester, q.tag)] } }) := by
  unfold State.admitRequest
  dsimp only
  split
  · next h => exact .inl ⟨h, rfl⟩
  · next h => exact .inr ⟨by simpa using h, rfl⟩

/-- A request's arrival leaves everything but the Lookup Engine, the events and the walk yield. -/
theorem State.arrive_only (q : LookupRequest) :
    ∃ lookup host yields,
      s.arrive q = { s with lookup := lookup, host := host, sweep := { s.sweep with yields := yields } } := by
  obtain ⟨kind, h⟩ | ⟨kind, -, h⟩ := s.arrive_cases q <;> rw [h]
  · exact ⟨_, _, _, rfl⟩
  · obtain ⟨-, h⟩ | ⟨-, h⟩ := s.admitRequest_cases q kind <;> rw [h] <;> exact ⟨_, _, _, rfl⟩

theorem State.recordAny_only (e : QueueEntry) (violation : Option ViolationSource) (outcome : ViolationOutcome) :
    ∃ violations, s.recordAny e violation outcome = { s with violations := violations } := by
  cases violation <;> exact ⟨_, rfl⟩

/-- A window's lookup takes a ticket, so a ruling names a window only when that window wins. -/
def Ruling.slot? : Ruling → Option Slot
  | .permit _ (.slot n) _ => some n
  | .permit _ .defaultRecord _ | .permit _ .boot _ | .deny _ _ _ => none

/-- A ruling carried out gives the head entry one answer, and allocates a ticket for a window's permission or leaves the
pool alone. -/
theorem State.carryOut_answers (e : QueueEntry) (ruling : Ruling) :
    ∃ (answer : Answer) (violations : Vector (Option Violation) 16) (pool : TicketPool),
      s.carryOut e ruling = State.placeVerdict { s with violations := violations, pool := pool } e answer ∧
      (pool = s.pool ∨ ∃ n k, ruling.slot? = some n ∧ s.freeTicket = some k ∧
        pool = (s.allocate k e.requester n).pool) := by
  cases ruling with
  | deny reason source violation =>
    obtain ⟨violations, h⟩ := s.recordAny_only e violation .denied
    exact ⟨.deny reason source, violations, s.pool, by rw [State.carryOut, h], .inl rfl⟩
  | permit watched source attrs =>
    obtain ⟨violations, h⟩ := s.recordAny_only e watched .watched
    cases source with
    | slot n =>
      cases free : s.freeTicket with
      | none => exact ⟨.retry, s.violations, s.pool, by simp only [State.carryOut, free], .inl rfl⟩
      | some k =>
        obtain ⟨violations, h⟩ := (s.allocate k e.requester n).recordAny_only e watched .watched
        exact ⟨_, violations, _, by simp only [State.carryOut, free, h]; rfl, .inr ⟨n, k, rfl, rfl, rfl⟩⟩
    | defaultRecord => exact ⟨_, violations, s.pool, by rw [State.carryOut, h], .inl rfl⟩
    | boot => exact ⟨_, violations, s.pool, by rw [State.carryOut, h], .inl rfl⟩

/-- A decided lookup (R34, R36, R123): its verdict is placed, the grant is used and released, and beside it Violation
Status and the pool may change, the pool for a ticket of the window that the ruling names. -/
theorem State.decideLookup_answers (e : QueueEntry) :
    ∃ answer, LookupAnswers e answer s (s.decideLookup e) ∧
      ((s.decideLookup e).pool = s.pool ∨ ∃ n k, (s.ruling e).slot? = some n ∧ s.freeTicket = some k ∧
        (s.decideLookup e).pool = (s.allocate k e.requester n).pool) := by
  obtain ⟨answer, violations, pool, placed, taken⟩ :=
    (s.grantTo .lookup).carryOut_answers e ((s.grantTo .lookup).ruling e)
  refine ⟨answer, ?_⟩
  simp only [State.decideLookup, placed]
  exact ⟨⟨rfl, by simp [State.hostWaitAtGrant, Config.ageLimit], rfl, rfl⟩, taken⟩

theorem State.departVerdict_only : ∃ lookup, s.departVerdict = { s with lookup := lookup } := by
  unfold State.departVerdict; split <;> exact ⟨_, rfl⟩

/-- The state of a completion before the drain that it may finish: the ticket freed and the use count lower (R58). -/
def State.ticketReturned (k : TicketNo) (n : Slot) : State := (s.setTicket k .free).setUse n (s.use n - 1)

/-- A COUNTED ticket's completion ends the drain of a slot whose count reaches 0, and only then (R58). -/
theorem State.completeCounted_cases (k : TicketNo) (n : Slot) :
    ((s.win n).isDraining = true ∧ s.use n - 1 = 0 ∧
      s.completeCounted k n = ((s.ticketReturned k n).endDrain n .drained).settleYield) ∨
    (((s.win n).isDraining = true → s.use n - 1 ≠ 0) ∧ s.completeCounted k n = s.ticketReturned k n) := by
  unfold State.completeCounted
  dsimp only
  split
  · next h =>
    simp only [Bool.and_eq_true, beq_iff_eq] at h
    exact .inl ⟨h.1, h.2, rfl⟩
  · next h => exact .inr ⟨by simpa using h, rfl⟩

/-- What a completion notice can do: a protocol occurrence, an ORPHAN's ticket freed, or a COUNTED ticket's completion. -/
theorem State.complete_cases (k : TicketNo) (r : Requester) :
    (∃ kind, s.complete k r = s.raiseProtocol kind) ∨
    (s.ticket k = .orphan r ∧ s.complete k r = s.setTicket k .free) ∨
    ∃ n, s.ticket k = .counted r n ∧ s.complete k r = s.completeCounted k n := by
  unfold State.complete
  split
  · exact .inl ⟨_, rfl⟩
  · next holder ticket =>
    split
    · next h => exact .inr (.inl ⟨h ▸ ticket, rfl⟩)
    · exact .inl ⟨_, rfl⟩
  · next holder n ticket =>
    split
    · next h => exact .inr (.inr ⟨n, h ▸ ticket, rfl⟩)
    · exact .inl ⟨_, rfl⟩

/-- A completion leaves everything but the pool, the windows, the ports and the walk yield. -/
theorem State.complete_only (k : TicketNo) (r : Requester) :
    ∃ pool yields, OnlyWindowsAndPorts { s with pool := pool, sweep := { s.sweep with yields := yields } }
      (s.complete k r) := by
  obtain ⟨kind, h⟩ | ⟨-, h⟩ | ⟨n, -, h⟩ := s.complete_cases k r <;> rw [h]
  · exact ⟨_, _, _, _, _, _, rfl⟩
  · exact ⟨_, _, .refl _⟩
  · obtain ⟨-, -, h⟩ | ⟨-, h⟩ := s.completeCounted_cases k n <;> rw [h]
    · obtain ⟨yields, settled⟩ := ((s.ticketReturned k n).endDrain n .drained).settleYield_only
      obtain ⟨windows, host, hand, maint, ended⟩ := (s.ticketReturned k n).endDrain_only n .drained
      rw [settled, ended]
      exact ⟨(s.ticketReturned k n).pool, yields, windows, host, hand, maint, rfl⟩
    · exact ⟨_, _, .refl _⟩

/-- The state of a fabric reset before the owed responses of the freed slots are offered (R69). -/
def State.fabricFreed : State :=
  State.mapWindows { s with lookup := s.lookup.emptied, pool := TicketPool.emptied } fun _ w => w.atFabricReset

theorem State.resetFabric_eq :
    s.resetFabric = ((s.fabricFreed.admitAllOwed .host).admitAllOwed .maint).settleYield := by
  simp only [State.resetFabric, State.fabricFreed]

/-- A fabric reset leaves everything but the Lookup Engine, the pool, the windows, the ports and the walk yield. -/
theorem State.resetFabric_only :
    ∃ yields, OnlyWindowsAndPorts { s with
        lookup := s.lookup.emptied, pool := TicketPool.emptied, sweep := { s.sweep with yields := yields } }
      s.resetFabric := by
  rw [s.resetFabric_eq]
  have freed : OnlyWindowsAndPorts { s with lookup := s.lookup.emptied, pool := TicketPool.emptied } s.fabricFreed :=
    State.mapWindows_only _ _
  have offered := (s.fabricFreed.admitAllOwed_only .host).trans (State.admitAllOwed_only _ .maint)
  obtain ⟨yields, settled⟩ := ((s.fabricFreed.admitAllOwed .host).admitAllOwed .maint).settleYield_only
  obtain ⟨windows, host, hand, maint, h⟩ := freed.trans offered
  rw [settled, h]
  exact ⟨yields, windows, host, hand, maint, rfl⟩

/-! ### The timer and the sweep -/

/-- What a sweep request can do: use up the grace, start a walk in ACTIVE mode, or nothing (R102, R107). -/
theorem State.sweepRequested_taken : SweepRequestTaken s s.sweepRequested := by
  unfold SweepRequestTaken State.sweepRequested
  split
  · rfl
  · cases walk : s.sweep.walk <;> cases mode : s.table.mode <;> simp [State.setWalk]

/-- What a tick of REFCLK can do (R101). -/
theorem State.tick_cases :
    s.tick = s ∨ ∃ ticks, s.timer.state = .running ∧ s.timer.prescale.ticks = some ticks ∧
      ((s.timer.prescaleCount + 1 < ticks ∧
        s.tick = { s with timer := { s.timer with prescaleCount := s.timer.prescaleCount + 1 } }) ∨
      (ticks ≤ s.timer.prescaleCount + 1 ∧ s.timer.counter + 1 < s.timer.period ∧
        s.tick = { s with timer := { s.timer with prescaleCount := 0, counter := s.timer.counter + 1 } }) ∨
      (ticks ≤ s.timer.prescaleCount + 1 ∧ s.timer.period ≤ s.timer.counter + 1 ∧
        s.tick = State.sweepRequested { s with timer := { s.timer with prescaleCount := 0, counter := 0 } })) := by
  unfold State.tick
  split
  · next ticks running prescale =>
    refine .inr ⟨ticks, running, prescale, ?_⟩
    split
    · next whole =>
      unfold State.count
      split
      · next period => exact .inr (.inr ⟨whole, period, rfl⟩)
      · next period => exact .inr (.inl ⟨whole, by simpa using period, rfl⟩)
    · next part => exact .inl ⟨by omega, rfl⟩
  all_goals exact .inl rfl

/-- What the rest of a period can do (R101, log entry 9). -/
theorem State.elapsePeriod_cases :
    s.elapsePeriod = s ∨ ∃ ticks, s.timer.state = .running ∧ s.timer.prescale.ticks = some ticks ∧
      s.elapsePeriod = State.sweepRequested { s with timer := { s.timer with prescaleCount := 0, counter := 0 } } := by
  unfold State.elapsePeriod
  split
  · next ticks running prescale => exact .inr ⟨ticks, running, prescale, rfl⟩
  all_goals exact .inl rfl

theorem State.sweepRequested_only :
    ∃ timer sweep, s.sweepRequested = { s with timer := timer, sweep := sweep } := by
  have taken := s.sweepRequested_taken
  unfold SweepRequestTaken at taken
  split at taken
  · exact ⟨_, _, taken⟩
  · split at taken <;> exact ⟨_, _, taken⟩

theorem State.elapsePeriod_only : ∃ timer sweep, s.elapsePeriod = { s with timer := timer, sweep := sweep } := by
  obtain h | ⟨_, -, -, h⟩ := s.elapsePeriod_cases <;> rw [h]
  · exact ⟨_, _, rfl⟩
  · obtain ⟨timer, sweep, h⟩ := State.sweepRequested_only { s with timer := { s.timer with prescaleCount := 0, counter := 0 } }
    exact ⟨timer, sweep, h⟩

theorem State.tick_only : ∃ timer sweep, s.tick = { s with timer := timer, sweep := sweep } := by
  obtain h | ⟨_, -, -, ⟨-, h⟩ | ⟨-, -, h⟩ | ⟨-, -, h⟩⟩ := s.tick_cases <;> rw [h]
  · exact ⟨_, _, rfl⟩
  · exact ⟨_, _, rfl⟩
  · exact ⟨_, _, rfl⟩
  · obtain ⟨timer, sweep, h⟩ := State.sweepRequested_only { s with timer := { s.timer with prescaleCount := 0, counter := 0 } }
    exact ⟨timer, sweep, h⟩

/-- What the visit to a LIVE window can do to it (R111, R112). -/
theorem State.visitLive_cases (n : Slot) :
    s.visitLive n = s ∨ ((s.win n).fresh = true ∧ s.visitLive n = s.setWin n { s.win n with fresh := false }) ∨
    (s.visitLive n = s.expire n) ∨
    (1#8 < (s.win n).remaining ∧ s.visitLive n = s.setWin n { s.win n with remaining := (s.win n).remaining - 1#8 }) := by
  unfold State.visitLive
  dsimp only
  split
  · exact .inl rfl
  · next leased =>
    split
    · next fresh => exact .inr (.inl ⟨fresh, rfl⟩)
    · split
      · exact .inr (.inr (.inl rfl))
      · next more => exact .inr (.inr (.inr ⟨by simpa using more, rfl⟩))

/-- What the visit to slot n can do: nothing, what a LIVE window's visit does, a forced drain, or an older drain. -/
theorem State.visitSlot_cases (n : Slot) :
    s.visitSlot n = s ∨ ((s.win n).state = .live ∧ s.visitSlot n = s.visitLive n) ∨
    ((s.win n).isDraining = true ∧ s.visitSlot n = s.forceDrain n) ∨
    ∃ cause age, (s.win n).state = .draining cause age ∧
      s.visitSlot n = s.setWin n { s.win n with state := .draining cause (nextAge age) } := by
  unfold State.visitSlot
  split
  · exact .inl rfl
  · exact .inl rfl
  · next live => exact .inr (.inl ⟨live, rfl⟩)
  · next cause age draining =>
    unfold State.visitDraining
    split
    · exact .inr (.inr (.inl ⟨by simp [Window.isDraining, draining], rfl⟩))
    · exact .inr (.inr (.inr ⟨cause, age, draining, rfl⟩))

/-- A visit to a slot leaves everything but the expiry set, the pool, the windows and the ports. -/
theorem State.visitSlot_only (n : Slot) :
    ∃ expiry pool, OnlyWindowsAndPorts { s with table := { s.table with expiry := expiry }, pool := pool }
      (s.visitSlot n) := by
  obtain h | ⟨-, h⟩ | ⟨-, h⟩ | ⟨cause, age, -, h⟩ := s.visitSlot_cases n <;> rw [h]
  · exact ⟨_, _, .refl s⟩
  · obtain h | ⟨-, h⟩ | h | ⟨-, h⟩ := s.visitLive_cases n <;> rw [h] <;> exact ⟨_, _, _, _, _, _, rfl⟩
  · obtain ⟨windows, host, hand, maint, h⟩ := (s.orphanTickets n).endDrain_only n .forced
    rw [State.forceDrain, h]
    exact ⟨_, _, windows, _, hand, maint, rfl⟩
  · exact ⟨_, _, _, _, _, _, rfl⟩

/-- A visit's table operation by the `endMark` of its walk (R108, R109). -/
theorem State.visit_endMarked (n : Slot) :
    s.visit n true = ((s.grantTo .sweep).setWalk .idle).releaseVisit := rfl

theorem State.visit_unmarked (n : Slot) :
    s.visit n false = (((s.grantTo .sweep).visitSlot n).setWalk (walkAfter n)).releaseVisit := rfl

/-- What a visit leaves outside its slot, the tickets and the ports; the walk has moved on. -/
theorem State.visit_only (n : Slot) (endMark : Bool) :
    ∃ expiry pool, OnlyWindowsAndPorts { s with
        table := { s.table with expiry := expiry }
        pool := pool
        arbiter := ⟨none, s.arbiter.hostWait⟩
        sweep := ⟨if endMark then .idle else walkAfter n, (s.visit n endMark).othersClaim⟩ }
      (s.visit n endMark) := by
  cases endMark with
  | true => exact ⟨_, _, .refl _⟩
  | false =>
    obtain ⟨expiry, pool, windows, host, hand, maint, h⟩ := (s.grantTo .sweep).visitSlot_only n
    refine ⟨expiry, pool, windows, host, hand, maint, ?_⟩
    simp only [State.visit_unmarked, h]
    rfl

/-! ### The Host Port -/

theorem State.writeCommand_only (privilege : Privilege) (word : Word) :
    OnlyWindowsAndPorts s (s.writeCommand privilege word) := by
  unfold State.writeCommand
  split
  · unfold State.takeHeader
    dsimp only
    split
    · exact ⟨_, _, _, _, rfl⟩
    · split
      · exact .trans ⟨_, _, _, _, rfl⟩ (State.takeInHand_only _)
      · exact ⟨_, _, _, _, rfl⟩
  · unfold State.takeData
    dsimp only
    split
    · exact .trans ⟨_, _, _, _, rfl⟩ (State.takeInHand_only _)
    · exact ⟨_, _, _, _, rfl⟩
  · exact ⟨_, _, _, _, rfl⟩

/-- The state after the head response has left and before its place is offered (R145). -/
def State.headLeft : State := { s with host := { s.host with responses := s.host.responses.tail, wordsRead := 0 } }

theorem State.advanceResponse_cases :
    (s.host.responses = [] ∧ s.advanceResponse = s) ∨ ∃ r rest, s.host.responses = r :: rest ∧
      ((s.host.wordsRead < r.data.length ∧
        s.advanceResponse = { s with host := { s.host with wordsRead := s.host.wordsRead + 1 } }) ∨
      (r.data.length ≤ s.host.wordsRead ∧ s.advanceResponse = (s.headLeft.admitOwed .host).takeInHand)) := by
  unfold State.advanceResponse
  split
  · next empty => exact .inl ⟨empty, rfl⟩
  · next r rest queue =>
    refine .inr ⟨r, rest, queue, ?_⟩
    simp only [Response.wordCount, Nat.add_le_add_iff_right]
    split
    · next last => exact .inr ⟨last, rfl⟩
    · next more => exact .inl ⟨by omega, rfl⟩

theorem State.advanceResponse_only : OnlyWindowsAndPorts s s.advanceResponse := by
  obtain ⟨-, h⟩ | ⟨_, _, -, ⟨-, h⟩ | ⟨-, h⟩⟩ := s.advanceResponse_cases <;> rw [h]
  · exact .refl s
  · exact ⟨_, _, _, _, rfl⟩
  · exact (OnlyWindowsAndPorts.trans ⟨_, _, _, _, rfl⟩ (s.headLeft.admitOwed_only .host)).trans (State.takeInHand_only _)

/-- A port reset leaves everything but the port, the windows, the host wait count and the walk yield. -/
theorem State.resetPort_only :
    ∃ yields, OnlyWindowsAndPorts { s with
        arbiter := { s.arbiter with hostWait := 0 }, sweep := { s.sweep with yields := yields } } s.resetPort := by
  unfold State.resetPort
  dsimp only
  generalize hd : State.mapWindows _ _ = dropped
  obtain ⟨yields, settled⟩ := dropped.settleYield_only
  rw [settled, ← hd]
  exact ⟨yields, _, _, _, _, rfl⟩

/-! ### The Maintenance Link -/

theorem State.answerUnknownTool_only : ∃ maint, s.answerUnknownTool = { s with maint := maint } := by
  unfold State.answerUnknownTool
  split
  · exact ⟨_, rfl⟩
  · split <;> exact ⟨_, rfl⟩

theorem State.frameArrives_only (frame : Frame) : ∃ maint, s.frameArrives frame = { s with maint := maint } := by
  unfold State.frameArrives
  split
  · obtain ⟨maint, h⟩ := State.answerUnknownTool_only
      { s with maint := { s.maint with command := some (Command.ofFrame frame), busy := false } }
    exact ⟨maint, h⟩
  · exact ⟨_, rfl⟩

/-- The state after a capture and before the empty register is offered (R158). -/
def State.registerCaptured : State :=
  { s with maint := { s.maint with capture := some s.responseFrame, response := none } }

theorem State.captureResponse_eq : s.captureResponse = s.registerCaptured.admitOwed .maint := rfl

theorem State.captureResponse_only : OnlyWindowsAndPorts s s.captureResponse :=
  .trans ⟨_, _, _, _, rfl⟩ (s.registerCaptured.admitOwed_only .maint)

/-- A link reset leaves everything but the link, the windows and the walk yield. -/
theorem State.resetLink_only :
    ∃ yields, OnlyWindowsAndPorts { s with sweep := { s.sweep with yields := yields } } s.resetLink := by
  unfold State.resetLink
  dsimp only
  generalize hd : State.mapWindows _ _ = dropped
  obtain ⟨yields, settled⟩ := dropped.settleYield_only
  rw [settled, ← hd]
  exact ⟨yields, _, _, _, _, rfl⟩

/-! ### Operations of the table commands and of the commands at their taking -/

/-- What the operation of a command on a party's own slots may leave of the state, with the checks it has passed. -/
inductive OwnOperated (s : State) (party : Party) : State → Prop
  | stays : OwnOperated s party s
  | staged (n : Slot) (base policy membership mask : Word) (owner : (s.win n).owner = party)
      (free : (s.win n).isFree = true) (fields : stagedFieldsGood base policy membership mask = true)
      (template : templateGood (base.extractLsb' 12 20) (mask.extractLsb' 12 20) = true)
      (target : s.targetGood party n (suppliedTarget base mask) = true) :
      OwnOperated s party (s.setWin n (stagedWindow party base policy membership mask))
  | abandoned (n : Slot) (owner : (s.win n).owner = party) (staged : (s.win n).isStaged = true) :
      OwnOperated s party (s.setWin n (Window.cleared (s.win n).owner none))
  | committed (passes : s.failingStaged party = none) : OwnOperated s party (s.mapWindows (s.committed party))
  | retired (n : Slot) (tag : CommandTag) (owner : (s.win n).owner = party) (live : (s.win n).isLive = true) :
      OwnOperated s party (s.setWin n ((s.win n).enterDrain .retire (some ⟨party, tag, none⟩) (s.use n)))
  | renewed (n : Slot) (reload : BitVec 8) (owner : (s.win n).owner = party) (live : (s.win n).isLive = true) :
      OwnOperated s party (s.setWin n { s.win n with reload := reload, remaining := reload, fresh := true })
  | modified (n : Slot) (selected : RecordWord) (word : Word) (owner : (s.win n).owner = party)
      (present : (s.win n).isStaged = true ∨ (s.win n).isLive = true) :
      OwnOperated s party (s.setWin n ((s.win n).withSelectedWord selected word))
  | expiryTaken (n : Slot) : OwnOperated s party (s.setExpired n false)

/-- What an operation of a party's table command may leave of the state. -/
inductive Operated (s : State) (party : Party) : State → Prop
  | own (t : State) (h : OwnOperated s party t) : Operated s party t
  | defaultSet (p : Policy) : Operated s party (s.setDefault p)
  | activated : Operated s party (s.setMode .active)
  | deactivated : Operated s party ((s.setMode .boot).setWalk s.sweep.walk.marked)
  | moved (giver receiver : Party) (first last : Slot) (ownership : Bool) :
      Operated s party (State.mapWindows { s with host := { s.host with ownership := ownership } } fun n w =>
        if w.moves giver first last n then { w with owner := receiver } else w)

/-- Every operation on a party's own slots is one of the cases. -/
theorem PartyCommand.operated {operation : Party → Command → State → State × Option Response}
    (row : PartyCommand operation) (party : Party) (c : Command) : OwnOperated s party (operation party c s).1 := by
  cases row with
  | stg =>
    unfold stgOperation
    dsimp only
    split; · exact .stays
    next owner =>
    split; · exact .stays
    next free =>
    split; · exact .stays
    next fields =>
    split; · exact .stays
    next template =>
    split; · exact .stays
    next target =>
    simp only [Bool.or_eq_true, Bool.not_eq_true', not_or, Bool.not_eq_false] at free
    exact .staged c.slot _ _ _ _ (not_not.mp owner) free.1 (by simpa using fields) (by simpa using template)
      (by simpa using target)
  | abn =>
    unfold abnOperation
    dsimp only
    split; · exact .stays
    next owner =>
    split; · exact .stays
    next staged => exact .abandoned c.slot (not_not.mp owner) (by simpa using staged)
  | cmt =>
    unfold cmtOperation
    split
    · exact .stays
    · next passes => exact .committed passes
  | rtr =>
    unfold rtrOperation
    dsimp only
    split; · exact .stays
    next owner =>
    split; · exact .stays
    split; · exact .stays
    next live => exact .retired c.slot c.tag (not_not.mp owner) (by simpa using live)
  | rnw =>
    unfold rnwOperation
    dsimp only
    split; · exact .stays
    next owner =>
    split; · exact .stays
    split; · exact .stays
    next live =>
    split
    · exact .stays
    · next reload _ => exact .renewed c.slot reload (not_not.mp owner) (by simpa using live)
  | mod =>
    unfold modOperation
    dsimp only
    split; · exact .stays
    next owner =>
    split; · exact .stays
    next present =>
    split; · exact .stays
    next selected _ =>
    split
    · exact .modified c.slot selected _ (not_not.mp owner) (by simpa [or_iff_not_imp_left] using present)
    · exact .stays
  | qry => exact .stays
  | rex =>
    unfold rexOperation
    split
    · exact .stays
    · next n _ => exact .expiryTaken n

theorem moveOperation_operated (party giver receiver : Party) (c : Command) :
    Operated s party (moveOperation giver receiver c s).1 := by
  unfold moveOperation
  split
  · exact .own s .stays
  · dsimp only
    split
    · exact .moved giver receiver c.slot c.lastSlot s.host.ownership
    · exact .moved giver receiver c.slot c.lastSlot true

/-- Every table command's operation is one of the cases. -/
theorem TableCommand.operated {party : Party} {operation : Party → Command → State → State × Option Response}
    (row : TableCommand party operation) (c : Command) : Operated s party (operation party c s).1 := by
  cases row with
  | ofParty _ row => exact .own _ (row.operated s party c)
  | sdf =>
    unfold sdfOperation
    split
    · exact .defaultSet _
    · exact .own s .stays
  | ten => exact .activated
  | tds => exact .deactivated
  | own => exact .own s .stays
  | grt => exact moveOperation_operated s .maint .maint .host c
  | rcl => exact moveOperation_operated s .maint .host .maint c

/-- An operation on a party's own slots leaves everything but the Window Table. -/
theorem OwnOperated.only {s t : State} {party : Party} (h : OwnOperated s party t) :
    ∃ windows expiry, t = { s with table := { s.table with windows := windows, expiry := expiry } } := by
  cases h <;> exact ⟨_, _, rfl⟩

/-- An operation leaves everything but the Window Table, the OWNERSHIP event and the walk. -/
theorem Operated.only {s t : State} {party : Party} (h : Operated s party t) :
    ∃ table walk ownership, t = { s with
      table := table, sweep := { s.sweep with walk := walk }, host := { s.host with ownership := ownership } } := by
  cases h with
  | own t h =>
    obtain ⟨_, _, rfl⟩ := h.only
    exact ⟨_, s.sweep.walk, s.host.ownership, rfl⟩
  | defaultSet => exact ⟨_, s.sweep.walk, s.host.ownership, rfl⟩
  | activated => exact ⟨_, s.sweep.walk, s.host.ownership, rfl⟩
  | deactivated => exact ⟨_, s.sweep.walk.marked, s.host.ownership, rfl⟩
  | moved giver receiver first last ownership => exact ⟨_, s.sweep.walk, ownership, rfl⟩

/-- A command at its taking acts on the profiles, the reserve, the violation records or the timer. -/
theorem TakingEffect.effect_only {effect : Command → State → State × Response} (row : TakingEffect effect)
    (c : Command) :
    ∃ profiles reserve violations timer, (effect c s).1 = { s with
      profiles := profiles, lookup := { s.lookup with reserve := reserve }, violations := violations,
      timer := timer } := by
  cases row
  case srv => unfold srvEffect; repeat' split
              all_goals exact ⟨_, _, _, _, rfl⟩
  case tcf => unfold tcfEffect; repeat' split
              all_goals exact ⟨_, _, _, _, rfl⟩
  case tst => unfold tstEffect; split <;> exact ⟨_, _, _, _, rfl⟩
  all_goals exact ⟨_, _, _, _, rfl⟩

end Sys2Proof.Machine
end

section
/-!
The in-flight set (R29, R46) and the timer with the walk (R100, R101, R109): what keeps each invariant, operation by
operation, and then over the cases of `State.Becomes`.
-/
namespace Sys2Proof.Machine

variable {s t : State}

/-! ### The in-flight set -/

/-- The in-flight invariant looks at the two lists and the set alone. -/
theorem State.FlightSound.of_lists (hs : s.FlightSound) (queue : t.lookup.queue = s.lookup.queue)
    (verdicts : t.lookup.verdicts = s.lookup.verdicts) (inFlight : t.lookup.inFlight = s.lookup.inFlight) :
    t.FlightSound := by
  unfold State.FlightSound State.pairsHeld at *
  rwa [queue, verdicts, inFlight]

theorem State.FlightSound.of_lookup (hs : s.FlightSound) (h : t.lookup = s.lookup) : t.FlightSound :=
  hs.of_lists (by rw [h]) (by rw [h]) (by rw [h])

/-- An engine with nothing queued, nothing decided and nothing in flight. -/
theorem State.FlightSound.of_empty (queue : t.lookup.queue = []) (verdicts : t.lookup.verdicts = [])
    (inFlight : t.lookup.inFlight = []) : t.FlightSound := by
  simp [State.FlightSound, State.pairsHeld, queue, verdicts, inFlight]

/-- A new pair that joins the set and one of the two lists. -/
theorem State.FlightSound.join (hs : s.FlightSound) {pair : Requester × LookupTag} (fresh : pair ∉ s.lookup.inFlight)
    (inFlight : t.lookup.inFlight = s.lookup.inFlight ++ [pair]) (held : t.pairsHeld.Perm (pair :: s.pairsHeld)) :
    t.FlightSound := by
  obtain ⟨perm, nodup⟩ := hs
  unfold State.FlightSound
  rw [inFlight]
  refine ⟨?_, List.nodup_append.mpr ⟨nodup, List.nodup_singleton _, ?_⟩⟩
  · calc (s.lookup.inFlight ++ [pair]).Perm (pair :: s.lookup.inFlight) := List.perm_append_singleton _ _
      _ |>.Perm (pair :: s.pairsHeld) := perm.cons pair
      _ |>.Perm t.pairsHeld := held.symm
  · rintro p hp q hq rfl
    exact fresh (List.mem_singleton.mp hq ▸ hp)

theorem State.FlightSound.admitRequest (hs : s.FlightSound) (q : LookupRequest) (kind : AccessKind)
    (fresh : (q.requester, q.tag) ∉ s.lookup.inFlight) : (s.admitRequest q kind).FlightSound := by
  obtain ⟨-, h⟩ | ⟨-, h⟩ := s.admitRequest_cases q kind <;> rw [h]
  · refine hs.join fresh rfl ?_
    simp [State.pairsHeld]
  · refine hs.join fresh rfl ?_
    simp [State.pairsHeld, ← List.append_assoc]

theorem State.FlightSound.arrive (hs : s.FlightSound) (q : LookupRequest) : (s.arrive q).FlightSound := by
  obtain ⟨kind, h⟩ | ⟨kind, fresh, h⟩ := s.arrive_cases q <;> rw [h]
  · exact hs.of_lookup rfl
  · exact hs.admitRequest q kind fresh

/-- The decided entry's pair passes from the queue to the buffer. -/
theorem State.FlightSound.decideLookup (hs : s.FlightSound) {e : QueueEntry} {rest : List QueueEntry}
    (head : s.lookup.queue = e :: rest) : (s.decideLookup e).FlightSound := by
  obtain ⟨answer, ⟨lookup, -⟩, -⟩ := s.decideLookup_answers e
  obtain ⟨perm, nodup⟩ := hs
  unfold State.FlightSound
  have held : s.pairsHeld.Perm (s.decideLookup e).pairsHeld := by
    simp only [State.pairsHeld, lookup, head, List.tail_cons, List.map_cons, List.map_append, List.map_nil,
      List.cons_append]
    rw [← List.append_assoc]
    exact (List.perm_append_singleton _ _).symm
  rw [lookup]
  exact ⟨perm.trans held, nodup⟩

theorem State.FlightSound.departVerdict (hs : s.FlightSound) : s.departVerdict.FlightSound := by
  unfold State.departVerdict
  split
  · exact hs
  · next v rest head =>
    obtain ⟨perm, nodup⟩ := hs
    refine ⟨?_, nodup.erase _⟩
    have gone := perm.erase (v.requester, v.tag)
    have moved : s.pairsHeld.Perm ((v.requester, v.tag) ::
        (s.lookup.queue.map (fun e => (e.requester, e.tag)) ++ rest.map fun v => (v.requester, v.tag))) := by
      simp only [State.pairsHeld, head, List.map_cons]
      exact List.perm_middle
    have rest := moved.erase (v.requester, v.tag)
    rw [List.erase_cons_head] at rest
    exact gone.trans rest

theorem State.Becomes.keeps_flightSound (h : s.Becomes t) (hs : s.FlightSound) : t.FlightSound := by
  cases h with
  | poweredOn => exact .of_empty rfl rfl rfl
  | fabricReset =>
    obtain ⟨_, _, _, _, _, h⟩ := s.resetFabric_only
    rw [h]
    exact .of_empty rfl rfl rfl
  | requestArrived q => exact hs.arrive q
  | lookupDecided e rest head => exact hs.decideLookup head
  | verdictDeparted => exact hs.departVerdict
  | ticketCompleted k r =>
    obtain ⟨_, _, only⟩ := s.complete_only k r
    exact hs.of_lookup only.lookup
  | ticked => obtain ⟨_, _, h⟩ := s.tick_only; rw [h]; exact hs
  | periodElapsed => obtain ⟨_, _, h⟩ := s.elapsePeriod_only; rw [h]; exact hs
  | slotVisited n endMark =>
    obtain ⟨_, _, only⟩ := s.visit_only n endMark
    exact hs.of_lookup only.lookup
  | commandWritten privilege word => exact hs.of_lookup (s.writeCommand_only privilege word).lookup
  | tableCommand party operation c row =>
    obtain ⟨_, _, _, h⟩ := (row.operated (s.grantTo (engineOf party)) c).only
    rw [h]
    exact hs.of_lookup (State.finishCommand_only _ party _).lookup
  | answeredAtTaking effect c row =>
    obtain ⟨_, _, _, _, h⟩ := row.effect_only s c
    have lookup := ((effect c s).1.answerTaken_only (effect c s).2).lookup
    rw [h] at lookup
    exact hs.of_lists (by rw [h, lookup]) (by rw [h, lookup]) (by rw [h, lookup])
  | refusedAtTaking r => exact hs.of_lookup (s.answerTaken_only r).lookup
  | toolAnswered => obtain ⟨_, h⟩ := s.answerUnknownTool_only; rw [h]; exact hs
  | responseRead => exact hs.of_lookup s.advanceResponse_only.lookup
  | hostOwedEntered => exact hs.of_lookup ((s.admitOwed_only .host).trans (State.takeInHand_only _)).lookup
  | toolOwedEntered => exact hs.of_lookup (s.admitOwed_only .maint).lookup
  | frameArrived frame => obtain ⟨_, h⟩ := s.frameArrives_only frame; rw [h]; exact hs
  | responseCaptured => exact hs.of_lookup s.captureResponse_only.lookup
  | portReset => obtain ⟨_, only⟩ := s.resetPort_only; exact hs.of_lookup only.lookup
  | linkReset => obtain ⟨_, only⟩ := s.resetLink_only; exact hs.of_lookup only.lookup
  | _ => exact hs

/-! ### The timer and the walk -/

/-- Both invariants of the clockwork. -/
def State.ClockSound (s : State) : Prop := s.TimerSound ∧ s.WalkSound

/-- The clockwork invariants look at the timer, the walk and the table mode alone. -/
theorem State.ClockSound.of_eq (hs : s.ClockSound) (timer : t.timer = s.timer) (walk : t.sweep.walk = s.sweep.walk)
    (mode : t.table.mode = s.table.mode) : t.ClockSound := by
  unfold State.ClockSound State.TimerSound State.WalkSound at *
  rwa [timer, walk, mode]

theorem OnlyWindowsAndPorts.keeps_clockSound (only : OnlyWindowsAndPorts s t) (hs : s.ClockSound) : t.ClockSound :=
  hs.of_eq only.timer (by rw [only.sweep]) only.mode

@[simp] theorem Walk.marked_marked (walk : Walk) : walk.marked.marked = walk.marked := by
  cases walk <;> rfl

theorem Prescale.ticks_pos {prescale : Prescale} {ticks : Nat} (h : prescale.ticks = some ticks) : 0 < ticks := by
  cases prescale <;> simp [Prescale.ticks] at h <;> omega

/-- A timer that starts a period: both counts are 0. -/
theorem State.TimerSound.restart (hs : s.TimerSound) :
    State.TimerSound { s with timer := { s.timer with prescaleCount := 0, counter := 0 } } := by
  obtain ⟨low, high, -⟩ := hs
  refine ⟨low, high, ?_⟩
  cases s.timer.state
  · exact ⟨rfl, rfl⟩
  · exact ⟨low, fun ticks h => Prescale.ticks_pos h⟩

/-- A sweep request leaves the counts alone and starts a walk in ACTIVE mode only (R107). -/
theorem State.ClockSound.sweepRequested (hs : s.ClockSound) : s.sweepRequested.ClockSound := by
  have taken := s.sweepRequested_taken
  unfold SweepRequestTaken at taken
  split at taken
  · rw [taken]; exact hs
  · split at taken
    · next active =>
      rw [taken]
      exact ⟨hs.1, fun boot => nomatch active.2.symm.trans boot⟩
    · rw [taken]; exact hs

theorem State.ClockSound.elapsePeriod (hs : s.ClockSound) : s.elapsePeriod.ClockSound := by
  obtain h | ⟨_, -, -, h⟩ := s.elapsePeriod_cases <;> rw [h]
  · exact hs
  · exact State.ClockSound.sweepRequested ⟨hs.1.restart, hs.2⟩

theorem State.ClockSound.tick (hs : s.ClockSound) : s.tick.ClockSound := by
  obtain ⟨⟨low, high, counts⟩, walk⟩ := id hs
  obtain h | ⟨ticks, running, prescale, ⟨part, h⟩ | ⟨-, more, h⟩ | ⟨-, -, h⟩⟩ := s.tick_cases <;> rw [h]
  · exact hs
  · rw [running] at counts
    refine ⟨⟨low, high, ?_⟩, walk⟩
    simp only [running]
    exact ⟨counts.1, fun _ hp => Option.some.inj (prescale.symm.trans hp) ▸ part⟩
  · refine ⟨⟨low, high, ?_⟩, walk⟩
    simp only [running]
    exact ⟨more, fun _ hp => Prescale.ticks_pos hp⟩
  · exact State.ClockSound.sweepRequested ⟨hs.1.restart, hs.2⟩

/-- A walk in BOOT mode carries its `endMark`, so the visit that finds it ends it (R109). -/
theorem State.WalkSound.visit (hs : s.WalkSound) {n : Slot} {endMark : Bool}
    (walk : s.sweep.walk = .walking n endMark) (mode : s.table.mode = .boot) : endMark = true := by
  have marked := hs mode
  rw [walk] at marked
  simpa [Walk.marked] using marked

theorem State.ClockSound.visit (hs : s.ClockSound) {n : Slot} {endMark : Bool}
    (walk : s.sweep.walk = .walking n endMark) : (s.visit n endMark).ClockSound := by
  obtain ⟨_, _, only⟩ := s.visit_only n endMark
  refine only.keeps_clockSound ⟨hs.1, fun boot => ?_⟩
  have ended : endMark = true := hs.2.visit walk boot
  subst ended
  rfl

/-- The effects at the taking keep the timer's counts in range (R103 to R105). -/
theorem TakingEffect.keeps_clockSound {effect : Command → State → State × Response} (row : TakingEffect effect)
    (c : Command) (hs : s.ClockSound) : (effect c s).1.ClockSound := by
  obtain ⟨⟨low, high, counts⟩, walk⟩ := id hs
  cases row with
  | spr => exact hs
  | rvs => exact hs
  | srv =>
    unfold srvEffect
    repeat' split
    all_goals exact hs
  | tcf =>
    unfold tcfEffect
    split
    · exact hs
    · exact hs
    · next prescale stopped _ =>
      split
      · exact hs
      · next period =>
        refine ⟨⟨Nat.one_le_iff_ne_zero.mpr period, ?_, ?_⟩, walk⟩
        · exact Nat.le_of_lt_succ ((c.word 0).extractLsb' 0 16).isLt
        · rw [stopped] at counts
          simp only [stopped]
          exact counts
  | tst =>
    unfold tstEffect
    split
    · exact hs
    · exact ⟨⟨low, high, low, fun _ h => Prescale.ticks_pos h⟩, walk⟩
  | tsp => exact ⟨⟨low, high, rfl, rfl⟩, walk⟩

/-- Of the table commands' operations [TEN] and [TDS] alone touch the clockwork, and [TDS] marks the walk (R109). -/
theorem Operated.keeps_clockSound {party : Party} (h : Operated s party t) (hs : s.ClockSound) : t.ClockSound := by
  cases h with
  | activated => exact ⟨hs.1, nofun⟩
  | deactivated => exact ⟨hs.1, fun _ => (Walk.marked_marked _).symm⟩
  | own t h => obtain ⟨_, _, rfl⟩ := h.only; exact hs
  | moved giver receiver first last ownership =>
    exact ((OnlyWindowsAndPorts.trans ⟨_, _, _, _, rfl⟩ (State.mapWindows_only _ _))).keeps_clockSound hs
  | _ => exact hs

theorem State.Becomes.keeps_clockSound (h : s.Becomes t) (hs : s.ClockSound) : t.ClockSound := by
  cases h with
  | poweredOn => exact ⟨⟨Nat.one_le_ofNat, le_rfl, rfl, rfl⟩, fun _ => rfl⟩
  | fabricReset =>
    obtain ⟨_, _, _, _, _, h⟩ := s.resetFabric_only
    rw [h]
    exact hs.of_eq rfl rfl rfl
  | requestArrived q => obtain ⟨_, _, _, h⟩ := s.arrive_only q; rw [h]; exact hs
  | lookupDecided e =>
    obtain ⟨_, ⟨-, -, sweep, rest⟩, -⟩ := s.decideLookup_answers e
    have timer := congrArg State.timer rest
    have mode := congrArg (fun u : State => u.table.mode) rest
    exact hs.of_eq timer (by rw [sweep]) mode
  | verdictDeparted => obtain ⟨_, h⟩ := s.departVerdict_only; rw [h]; exact hs
  | ticketCompleted k r =>
    obtain ⟨_, _, only⟩ := s.complete_only k r
    exact only.keeps_clockSound hs
  | ticked => exact hs.tick
  | periodElapsed => exact hs.elapsePeriod
  | slotVisited n endMark walk => exact hs.visit walk
  | commandWritten privilege word => exact (s.writeCommand_only privilege word).keeps_clockSound hs
  | tableCommand party operation c row =>
    refine (State.finishCommand_only _ party _).keeps_clockSound ?_
    exact (row.operated (s.grantTo (engineOf party)) c).keeps_clockSound hs
  | answeredAtTaking effect c row => exact (State.answerTaken_only _ _).keeps_clockSound (row.keeps_clockSound c hs)
  | refusedAtTaking r => exact (s.answerTaken_only r).keeps_clockSound hs
  | toolAnswered => obtain ⟨_, h⟩ := s.answerUnknownTool_only; rw [h]; exact hs
  | responseRead => exact s.advanceResponse_only.keeps_clockSound hs
  | hostOwedEntered => exact ((s.admitOwed_only .host).trans (State.takeInHand_only _)).keeps_clockSound hs
  | toolOwedEntered => exact (s.admitOwed_only .maint).keeps_clockSound hs
  | frameArrived frame => obtain ⟨_, h⟩ := s.frameArrives_only frame; rw [h]; exact hs
  | responseCaptured => exact s.captureResponse_only.keeps_clockSound hs
  | portReset => obtain ⟨_, only⟩ := s.resetPort_only; exact only.keeps_clockSound hs
  | linkReset => obtain ⟨_, only⟩ := s.resetLink_only; exact only.keeps_clockSound hs
  | _ => exact hs

end Sys2Proof.Machine
end

section
open Sys2Proof Sys2Proof.Machine

/-- Settles O6, by the cases of what a command can do: only a request's arrival, a decided lookup, a departure and the
two resets touch the Lookup Engine's lists. -/
theorem stepKeepsInFlight : Obligations.StepKeepsInFlight :=
  fun _ _ hs h => step_keeps (fun _ _ hs => hs) (fun _ _ becomes hs => becomes.keeps_flightSound hs) hs h

/-- Settles O7, by the cases of what a command can do. -/
theorem stepKeepsTimerAndWalk : Obligations.StepKeepsTimerAndWalk :=
  fun _ _ timer walk h =>
    step_keeps (P := State.ClockSound) (fun _ _ hs => hs) (fun _ _ becomes hs => becomes.keeps_clockSound hs)
      ⟨timer, walk⟩ h

end

section
/-!
The winner of a lookup (R13, R14): the lowest slot of the highest rank, as the model's search finds it.
-/
namespace Sys2Proof.Machine

/-- The first element in order that passes a test: it passes, and nothing lower does. -/
theorem finRange_find?_eq_some {k : Nat} {p : Fin k → Bool} {n : Fin k} :
    (List.finRange k).find? p = some n ↔ p n = true ∧ ∀ m : Fin k, m < n → p m = false := by
  rw [List.find?_eq_some_iff_append]
  have sorted := List.pairwise_lt_finRange k
  constructor
  · rintro ⟨hn, as, bs, split, low⟩
    refine ⟨hn, fun m hm => ?_⟩
    rw [split, List.pairwise_append, List.pairwise_cons] at sorted
    have mem : m ∈ as ++ n :: bs := split ▸ List.mem_finRange m
    rcases List.mem_append.mp mem with h | h
    · simpa using low m h
    · rcases List.mem_cons.mp h with rfl | h
      · exact absurd hm (lt_irrefl _)
      · exact absurd (sorted.2.1.1 m h) (not_lt.mpr hm.le)
  · rintro ⟨hn, low⟩
    obtain ⟨as, bs, split⟩ := List.append_of_mem (List.mem_finRange n)
    rw [split, List.pairwise_append] at sorted
    exact ⟨hn, as, bs, split, fun m hm => by simp [low m (sorted.2.2 m hm n (by simp))]⟩

variable (s : State)

theorem State.matchesAt_iff (page : Page) (r : Requester) (n : Slot) :
    s.matchesAt page r n = true ↔ (s.win n).state = .live ∧ page &&& (s.win n).mask = (s.win n).base ∧
      (s.win n).members.getLsbD r.val = true := by
  simp only [State.matchesAt, Window.covers, Bool.and_eq_true, beq_iff_eq]
  refine and_congr_left' ?_
  unfold Window.isLive
  split <;> simp_all

/-- The search finds the winner of R14, and no other slot. -/
theorem State.winner_eq_some_iff (page : Page) (r : Requester) (n : Slot) :
    s.winner page r = some n ↔ s.Wins page r n := by
  have best : ∀ m : Slot, (s.matchesAt page r m &&
      allSlots.all fun k => !s.matchesAt page r k || (s.win k).rank ≤ (s.win m).rank) = true ↔
      s.matchesAt page r m = true ∧ ∀ k, s.matchesAt page r k = true → (s.win k).rank ≤ (s.win m).rank := by
    intro m
    simp [allSlots, or_iff_not_imp_left]
  unfold State.winner allSlots State.Wins
  rw [finRange_find?_eq_some]
  change _ = true ∧ (∀ m < n, _ = false) ↔ _
  simp only [← Bool.not_eq_true]
  have best' := best
  simp only [allSlots] at best'
  simp only [best']
  simp only [BitVec.le_def, BitVec.lt_def, ← BitVec.toNat_inj, Fin.lt_def, Fin.ext_iff]
  constructor
  · rintro ⟨⟨hit, top⟩, low⟩
    refine ⟨hit, fun m hm => ?_⟩
    have notLower : m.val < n.val → (s.win m).rank.toNat ≠ (s.win n).rank.toNat := fun h same =>
      low m h ⟨hm, fun k hk => same ▸ top k hk⟩
    have atMost := top m hm
    omega
  · rintro ⟨hit, beats⟩
    refine ⟨⟨hit, fun k hk => ?_⟩, fun m below top => ?_⟩
    · rcases beats k hk with same | lower | ⟨same, -⟩
      · rw [Fin.ext same]
      · omega
      · omega
    · have atLeast := top.2 n hit
      rcases beats m top.1 with same | lower | ⟨-, above⟩ <;> omega

/-- Among the matching windows one has the highest rank, so the search fails only when none matches. -/
theorem State.winner_eq_none_iff (page : Page) (r : Requester) :
    s.winner page r = none ↔ ∀ n : Slot, s.matchesAt page r n = false := by
  constructor
  · intro none n
    by_contra hit
    let hits : Finset Slot := Finset.univ.filter fun m => s.matchesAt page r m = true
    have mem : n ∈ hits := by simpa [hits] using hit
    obtain ⟨m, hm, top⟩ := hits.exists_max_image (fun m => (s.win m).rank.toNat) ⟨n, mem⟩
    have := List.find?_eq_none.mp none m (List.mem_finRange m)
    simp only [hits, Finset.mem_filter, Finset.mem_univ, true_and] at hm top
    exact this (by simpa [allSlots, hm, or_iff_not_imp_left, BitVec.le_def] using top)
  · intro nothing
    exact List.find?_eq_none.mpr fun m _ => by simp [nothing m]

theorem State.winner_isLive {page : Page} {r : Requester} {n : Slot} (h : s.winner page r = some n) :
    (s.win n).state = .live :=
  ((s.matchesAt_iff page r n).mp ((s.winner_eq_some_iff page r n).mp h).1).1

/-- A ruling names the window that wins, which is LIVE. -/
theorem State.ruling_slot {e : QueueEntry} {n : Slot} (h : (s.ruling e).slot? = some n) :
    (s.win n).state = .live := by
  have named : ∀ (p : Policy) (privilege : Privilege) (kind : AccessKind) (source : Source) (v : ViolationSource)
      (reason : DenyReason), (p.rule privilege kind source v reason).slot? = some n → source = .slot n := by
    intro p privilege kind source v reason
    unfold Policy.rule
    repeat' split
    all_goals cases source <;> simp [Ruling.slot?]
  unfold State.ruling at h
  dsimp only at h
  split at h
  · cases h
  · split at h
    · cases h
    · split at h
      · cases h
      · split at h
        · next m winner =>
          obtain rfl : m = n := by simpa using named _ _ _ _ _ _ h
          exact s.winner_isLive winner
        · cases named _ _ _ _ _ _ h

end Sys2Proof.Machine
end

section
open Sys2Proof Sys2Proof.Machine

/-- Settles O15, by what the search over the slots finds and when it finds nothing. -/
theorem winnerIsHighestRankThenLowestSlot : Obligations.WinnerIsHighestRankThenLowestSlot :=
  fun s page r => ⟨s.matchesAt_iff page r, s.winner_eq_some_iff page r, s.winner_eq_none_iff page r⟩

end

section
/-!
What a command does to the windows and the tickets, said once. Around the one move that a command makes, its grant and
its responses leave every window as it is but for owed responses that leave their slots: `OwedLeaves`.
-/
namespace Sys2Proof.Machine

/-- The pool stays, and a window stays but for an owed response that leaves it. -/
def OwedLeaves (s t : State) : Prop :=
  t.pool = s.pool ∧ ∀ n : Slot, t.win n = s.win n ∨ t.win n = { s.win n with owed := none }

namespace OwedLeaves

variable {s t u : State}

theorem of_eq (pool : t.pool = s.pool) (win : ∀ n, t.win n = s.win n) : OwedLeaves s t :=
  ⟨pool, fun n => .inl (win n)⟩

theorem of_table (pool : t.pool = s.pool) (table : t.table = s.table) : OwedLeaves s t :=
  .of_eq pool fun n => by simp only [State.win, table]

theorem refl (s : State) : OwedLeaves s s := .of_eq rfl fun _ => rfl

theorem trans (h : OwedLeaves s t) (k : OwedLeaves t u) : OwedLeaves s u := by
  refine ⟨k.1.trans h.1, fun n => ?_⟩
  rcases h.2 n with h | h <;> rcases k.2 n with k | k <;> rw [k, h]
  · exact .inl rfl
  · exact .inr rfl
  · exact .inr rfl
  · exact .inr rfl

theorem use (h : OwedLeaves s t) (n : Slot) : t.use n = s.use n := by
  simp only [State.use, h.1]

theorem countedTickets (h : OwedLeaves s t) (n : Slot) : t.countedTickets n = s.countedTickets n := by
  simp only [State.countedTickets, State.ticket, h.1]

theorem state (h : OwedLeaves s t) (n : Slot) : (t.win n).state = (s.win n).state := by
  rcases h.2 n with h | h <;> rw [h]

theorem base (h : OwedLeaves s t) (n : Slot) : (t.win n).base = (s.win n).base := by
  rcases h.2 n with h | h <;> rw [h]

theorem mask (h : OwedLeaves s t) (n : Slot) : (t.win n).mask = (s.win n).mask := by
  rcases h.2 n with h | h <;> rw [h]

end OwedLeaves

section
variable (s : State)

theorem State.admitOwed_owedLeaves (party : Party) : OwedLeaves s (s.admitOwed party) :=
  ⟨by simp, s.admitOwed_win party⟩

theorem State.takeInHand_owedLeaves : OwedLeaves s s.takeInHand := .of_table (by simp) (by simp)

theorem State.admitAllOwed_owedLeaves (party : Party) : OwedLeaves s (s.admitAllOwed party) :=
  s.admitAllOwed_induct (P := OwedLeaves s) party (fun t h => h.trans (t.admitOwed_owedLeaves party)) (.refl s)

theorem State.finishCommand_owedLeaves (party : Party) (response : Option Response) :
    OwedLeaves s (s.finishCommand party response) :=
  .of_table (s.finishCommand_only party response).pool (s.finishCommand_windows party response)

theorem State.answerTaken_owedLeaves (r : Response) : OwedLeaves s (s.answerTaken r) :=
  State.takeInHand_owedLeaves (s.dropHead.place .host r)

/-- The ending of a drain frees its slot; then an owed response may leave its slot for a port. -/
theorem State.endDrain_owedLeaves (n : Slot) (outcome : DrainOutcome) :
    OwedLeaves (s.setWin n ((s.win n).endDrain outcome)) (s.endDrain n outcome) := by
  obtain ⟨-, h⟩ | ⟨o, -, h⟩ := s.endDrain_cases n outcome <;> rw [h]
  · exact .refl _
  · exact State.admitOwed_owedLeaves _ o.party

theorem State.writeCommand_owedLeaves (privilege : Privilege) (word : Word) :
    OwedLeaves s (s.writeCommand privilege word) := by
  have taken : ∀ t : State, OwedLeaves s t → OwedLeaves s t.takeInHand :=
    fun t h => h.trans t.takeInHand_owedLeaves
  unfold State.writeCommand
  split
  · unfold State.takeHeader
    dsimp only
    repeat' split
    · exact .refl s
    · exact .refl s
    · exact taken _ (.refl s)
    · exact .refl s
  · unfold State.takeData
    dsimp only
    split
    · exact taken _ (.refl s)
    · exact .refl s
  · exact .refl s

theorem State.advanceResponse_owedLeaves : OwedLeaves s s.advanceResponse := by
  obtain ⟨-, h⟩ | ⟨_, _, -, ⟨-, h⟩ | ⟨-, h⟩⟩ := s.advanceResponse_cases <;> rw [h]
  · exact .refl s
  · exact .refl s
  · exact (s.headLeft.admitOwed_owedLeaves .host).trans (State.takeInHand_owedLeaves _)

theorem Window.dropOwed_cases (w : Window) (party : Party) :
    w.dropOwed party = w ∨ w.dropOwed party = { w with owed := none } := by
  unfold Window.dropOwed
  split
  · split
    · exact .inr rfl
    · exact .inl rfl
  · exact .inl rfl

theorem State.dropOwed_owedLeaves (party : Party) : OwedLeaves s (s.mapWindows fun _ w => w.dropOwed party) := by
  refine ⟨s.mapWindows_pool _, fun n => ?_⟩
  rw [State.mapWindows_win]
  exact (s.win n).dropOwed_cases party

theorem State.resetPort_owedLeaves : OwedLeaves s s.resetPort :=
  State.dropOwed_owedLeaves
    { s with host := s.host.afterReset, hostHand := none, arbiter := { s.arbiter with hostWait := 0 } } .host

theorem State.resetLink_owedLeaves : OwedLeaves s s.resetLink :=
  State.dropOwed_owedLeaves
    { s with maint := { s.maint with command := none, response := none, busy := false, capture := none } } .maint

end

/-- The move that a command makes among the windows and the tickets, with what it has found there. -/
inductive State.Moves (s : State) : State → Prop
  | stays : s.Moves s
  | poweredOn (straps : Straps) : s.Moves (s.powerOn straps)
  | fabricFreed : s.Moves s.fabricFreed
  | ticketTaken (k : TicketNo) (r : Requester) (n : Slot) (free : s.ticket k = .free) (live : (s.win n).state = .live) :
      s.Moves (s.allocate k r n)
  | orphanFreed (k : TicketNo) (r : Requester) (orphan : s.ticket k = .orphan r) : s.Moves (s.setTicket k .free)
  | ticketReturned (k : TicketNo) (r : Requester) (n : Slot) (counted : s.ticket k = .counted r n)
      (more : (s.win n).isDraining = true → s.use n - 1 ≠ 0) : s.Moves (s.ticketReturned k n)
  | drainCompleted (k : TicketNo) (r : Requester) (n : Slot) (counted : s.ticket k = .counted r n)
      (draining : (s.win n).isDraining = true) (last : s.use n - 1 = 0) :
      s.Moves ((s.ticketReturned k n).setWin n ((s.win n).endDrain .drained))
  | drainForced (n : Slot) (draining : (s.win n).isDraining = true) :
      s.Moves ((s.orphanTickets n).setWin n ((s.win n).endDrain .forced))
  | drainAged (n : Slot) (cause : DrainCause) (age : BitVec 4) (draining : (s.win n).state = .draining cause age) :
      s.Moves (s.setWin n { s.win n with state := .draining cause (nextAge age) })
  | freshCleared (n : Slot) (live : (s.win n).state = .live) : s.Moves (s.setWin n { s.win n with fresh := false })
  | leaseAged (n : Slot) (live : (s.win n).state = .live) (more : 1#8 < (s.win n).remaining) :
      s.Moves (s.setWin n { s.win n with remaining := (s.win n).remaining - 1#8 })
  | leaseExpired (n : Slot) (live : (s.win n).state = .live) :
      s.Moves (s.setWin n ({ s.win n with remaining := 0#8 }.enterDrain .expiry none (s.use n)))
  | operated (party : Party) (t : State) (h : Operated s party t) : s.Moves t

/-- Ticket k is free, as the search for the lowest free ticket finds it. -/
theorem State.freeTicket_free {s : State} {k : TicketNo} (h : s.freeTicket = some k) : s.ticket k = .free := by
  simpa using List.find?_some h

/-- The visit to a slot makes one move. -/
theorem State.visitSlot_moves (s : State) (n : Slot) : ∃ u, s.Moves u ∧ OwedLeaves u (s.visitSlot n) := by
  obtain h | ⟨live, h⟩ | ⟨draining, h⟩ | ⟨cause, age, draining, h⟩ := s.visitSlot_cases n <;> rw [h]
  · exact ⟨_, .stays, .refl s⟩
  · obtain h | ⟨-, h⟩ | h | ⟨more, h⟩ := s.visitLive_cases n <;> rw [h]
    · exact ⟨_, .stays, .refl s⟩
    · exact ⟨_, .freshCleared n live, .refl _⟩
    · exact ⟨_, .leaseExpired n live, .refl _⟩
    · exact ⟨_, .leaseAged n live more, .refl _⟩
  · exact ⟨_, .drainForced n draining, (s.orphanTickets n).endDrain_owedLeaves n .forced⟩
  · exact ⟨_, .drainAged n cause age draining, .refl _⟩

/-- Every command makes one move, on the state as it stands after a grant, and then owed responses may leave their
slots. -/
theorem State.Becomes.moves {s t : State} (h : s.Becomes t) :
    ∃ u v, OwedLeaves s u ∧ u.Moves v ∧ OwedLeaves v t := by
  have settles : ∀ {t}, OwedLeaves s t → ∃ u v, OwedLeaves s u ∧ u.Moves v ∧ OwedLeaves v t :=
    fun h => ⟨s, s, .refl s, .stays, h⟩
  cases h with
  | stays => exact settles (.refl s)
  | poweredOn straps => exact ⟨s, _, .refl s, .poweredOn straps, .refl _⟩
  | pornFell => exact settles (.refl s)
  | frstReleased => exact settles (.refl s)
  | fabricReset =>
    have offered := (s.fabricFreed.admitAllOwed_owedLeaves .host).trans (State.admitAllOwed_owedLeaves _ .maint)
    have settled : OwedLeaves s.fabricFreed { s.resetFabric with frst := true } := by
      rw [s.resetFabric_eq]
      generalize (s.fabricFreed.admitAllOwed .host).admitAllOwed .maint = u at offered
      exact offered.trans (.of_eq rfl fun _ => rfl)
    exact ⟨s, _, .refl s, .fabricFreed, settled⟩
  | requestArrived q => obtain ⟨_, _, _, h⟩ := s.arrive_only q; rw [h]; exact settles (.refl s)
  | lookupDecided e =>
    obtain ⟨_, ⟨-, -, -, rest⟩, pool⟩ := s.decideLookup_answers e
    have table := congrArg State.table rest
    rcases pool with pool | ⟨n, k, slot, free, pool⟩
    · exact settles (.of_table pool table)
    · exact ⟨s, _, .refl s, .ticketTaken k e.requester n (State.freeTicket_free free) (s.ruling_slot slot),
        .of_table pool table⟩
  | verdictDeparted => obtain ⟨_, h⟩ := s.departVerdict_only; rw [h]; exact settles (.refl s)
  | ticketCompleted k r =>
    obtain ⟨_, h⟩ | ⟨orphan, h⟩ | ⟨n, counted, h⟩ := s.complete_cases k r <;> rw [h]
    · exact settles (.refl s)
    · exact ⟨s, _, .refl s, .orphanFreed k r orphan, .refl _⟩
    · obtain ⟨draining, last, h⟩ | ⟨more, h⟩ := s.completeCounted_cases k n <;> rw [h]
      · exact ⟨s, _, .refl s, .drainCompleted k r n counted draining last,
          (s.ticketReturned k n).endDrain_owedLeaves n .drained⟩
      · exact ⟨s, _, .refl s, .ticketReturned k r n counted more, .refl _⟩
  | ticked => obtain ⟨_, _, h⟩ := s.tick_only; rw [h]; exact settles (.refl s)
  | periodElapsed => obtain ⟨_, _, h⟩ := s.elapsePeriod_only; rw [h]; exact settles (.refl s)
  | slotVisited n endMark =>
    cases endMark with
    | true => exact settles (.refl s)
    | false =>
      obtain ⟨u, moves, leaves⟩ := (s.grantTo .sweep).visitSlot_moves n
      exact ⟨s.grantTo .sweep, u, .of_eq rfl fun _ => rfl, moves, leaves.trans (.of_eq rfl fun _ => rfl)⟩
  | commandWritten privilege word => exact settles (s.writeCommand_owedLeaves privilege word)
  | tableCommand party operation c row =>
    exact ⟨s.grantTo (engineOf party), _, .of_eq rfl fun _ => rfl, .operated party _ (row.operated _ c),
      State.finishCommand_owedLeaves _ party _⟩
  | answeredAtTaking effect c row =>
    obtain ⟨_, _, _, _, h⟩ := row.effect_only s c
    have effected : OwedLeaves s (effect c s).1 := by rw [h]; exact .of_eq rfl fun _ => rfl
    exact settles (effected.trans (State.answerTaken_owedLeaves _ _))
  | refusedAtTaking r => exact settles (s.answerTaken_owedLeaves r)
  | toolAnswered => obtain ⟨_, h⟩ := s.answerUnknownTool_only; rw [h]; exact settles (.refl s)
  | busRead => exact settles (.refl s)
  | responseRead => exact settles s.advanceResponse_owedLeaves
  | hostOwedEntered => exact settles ((s.admitOwed_owedLeaves .host).trans (State.takeInHand_owedLeaves _))
  | toolOwedEntered => exact settles (s.admitOwed_owedLeaves .maint)
  | stickyCleared => exact settles (.refl s)
  | enablesWritten => exact settles (.refl s)
  | portReset => exact settles s.resetPort_owedLeaves
  | frameArrived frame => obtain ⟨_, h⟩ := s.frameArrives_only frame; rw [h]; exact settles (.refl s)
  | responseCaptured => exact settles (s.registerCaptured.admitOwed_owedLeaves .maint)
  | freeCaptured => exact settles (.refl s)
  | linkReset => exact settles s.resetLink_owedLeaves

end Sys2Proof.Machine
end

section
/-!
The window records and the supersede targets (R4, R8, R11, R12, R82, R111): each way in which a command writes a window
leaves a sound record, and only [STG] names a target.
-/
namespace Sys2Proof.Machine

/-! ### The states of a window -/

theorem Window.isFree_iff {w : Window} : w.isFree = true ↔ w.state = .free := by
  unfold Window.isFree; split <;> simp_all

theorem Window.isLive_iff {w : Window} : w.isLive = true ↔ w.state = .live := by
  unfold Window.isLive; split <;> simp_all

theorem Window.isStaged_iff {w : Window} : w.isStaged = true ↔ ∃ target, w.state = .staged target := by
  unfold Window.isStaged; split <;> simp_all

theorem Window.isDraining_iff {w : Window} : w.isDraining = true ↔ ∃ cause age, w.state = .draining cause age := by
  unfold Window.isDraining; split <;> simp_all

theorem Window.target_eq_some_iff {w : Window} {t : Slot} : w.target = some t ↔ w.state = .staged (some t) := by
  unfold Window.target; split <;> simp_all

/-- The target of a window follows from its state. -/
theorem Window.target_congr {w v : Window} (h : w.state = v.state) : w.target = v.target := by
  unfold Window.target; rw [h]

/-! ### Sound records -/

theorem Window.cleared_sound (owner : Party) (owed : Option Owed)
    (done : ∀ o, owed = some o → o.outcome.isSome = true) : (Window.cleared owner owed).Sound :=
  ⟨by simp [Window.cleared], by simp [Window.cleared], rfl, done⟩

/-- A window that leaves LIVE is sound when the owed response written with it is a retire's that runs (R11, R61). -/
theorem Window.Sound.enterDrain {w : Window} (hw : w.Sound) (cause : DrainCause) (owed : Option Owed) (useCount : Nat)
    (running : ∀ o, owed = some o → cause = .retire ∧ o.outcome = none) :
    (w.enterDrain cause owed useCount).Sound := by
  unfold Window.enterDrain
  split
  · exact Window.cleared_sound _ _ nofun
  · exact ⟨hw.1, hw.2.1, rfl, running⟩

theorem Window.endDrain_sound (w : Window) (outcome : DrainOutcome) : (w.endDrain outcome).Sound := by
  refine Window.cleared_sound _ _ fun o h => ?_
  obtain ⟨o', -, rfl⟩ := Option.map_eq_some_iff.mp h
  rfl

theorem Window.Sound.dropOwed {w : Window} (hw : w.Sound) : Window.Sound { w with owed := none } := by
  obtain ⟨template, lease, state⟩ := hw
  refine ⟨template, lease, ?_⟩
  cases h : w.state <;> simp only [h] at state ⊢
  case free => exact ⟨by rw [state.1]; rfl, nofun⟩
  case staged => exact ⟨trivial, state.2⟩
  case live => exact ⟨trivial, state.2⟩
  case draining => exact ⟨state.1, nofun⟩

/-- The checks of [STG] make the window that it writes sound (R4, R8, R81). -/
theorem stagedWindow_sound {party : Party} {base policy membership mask : Word}
    (fields : stagedFieldsGood base policy membership mask = true)
    (template : templateGood (base.extractLsb' 12 20) (mask.extractLsb' 12 20) = true) :
    (stagedWindow party base policy membership mask).Sound := by
  simp only [stagedFieldsGood, Bool.and_eq_true, decide_eq_true_eq] at fields
  exact ⟨eq_of_beq template, fields.1.1.1.1, rfl, rfl⟩

theorem Window.Sound.commit {w : Window} (hw : w.Sound) (staged : w.isStaged = true) : w.commit.Sound := by
  obtain ⟨target, h⟩ := Window.isStaged_iff.mp staged
  obtain ⟨template, -, state⟩ := hw
  rw [h] at state
  exact ⟨template, BitVec.le_refl _, state.1, id⟩

/-- A LIVE window stays sound under a new lease that has a visit left. -/
theorem Window.Sound.release {w v : Window} (hw : w.Sound) (live : w.state = .live) (state : v.state = w.state)
    (base : v.base = w.base) (mask : v.mask = w.mask) (owed : v.owed = w.owed) (lease : v.remaining ≤ v.reload)
    (left : v.reload ≠ 0#8 → v.remaining ≠ 0#8) : v.Sound := by
  obtain ⟨template, -, fields⟩ := hw
  rw [live] at fields
  refine ⟨by rw [base, mask]; exact template, lease, ?_⟩
  rw [state, live]
  exact ⟨owed.trans fields.1, left⟩

theorem Window.Sound.leaseLeft {w : Window} (hw : w.Sound) (live : w.state = .live) :
    w.remaining ≤ w.reload ∧ (w.reload ≠ 0#8 → w.remaining ≠ 0#8) := by
  obtain ⟨-, lease, fields⟩ := hw
  rw [live] at fields
  exact ⟨lease, fields.2⟩

theorem Window.Sound.withSelectedWord {w : Window} (hw : w.Sound) (present : w.isStaged = true ∨ w.isLive = true)
    (selected : RecordWord) (word : Word) : (w.withSelectedWord selected word).Sound := by
  obtain ⟨template, lease, fields⟩ := hw
  rw [Window.isStaged_iff, Window.isLive_iff] at present
  cases selected <;> refine ⟨template, lease, ?_⟩ <;>
    obtain ⟨target, h⟩ | h := present <;> simpa only [Window.withSelectedWord, h] using fields

/-- A slot that moves is FREE and cleared, and stays so under its new owner (R162). -/
theorem Window.Sound.move {w : Window} (hw : w.Sound) (free : w.isFree = true) (receiver : Party) :
    Window.Sound { w with owner := receiver } := by
  obtain ⟨template, lease, fields⟩ := hw
  have state := Window.isFree_iff.mp free
  refine ⟨template, lease, ?_⟩
  simp only [state] at fields ⊢
  exact ⟨by rw [fields.1]; rfl, fields.2⟩

theorem Window.Sound.olderDrain {w : Window} (hw : w.Sound) {cause : DrainCause} {age : BitVec 4}
    (draining : w.state = .draining cause age) (older : BitVec 4) :
    Window.Sound { w with state := .draining cause older } := by
  obtain ⟨template, lease, fields⟩ := hw
  rw [draining] at fields
  exact ⟨template, lease, fields⟩

/-! ### Records and targets of the state -/

/-- Both invariants of the records. -/
def State.TableSound (s : State) : Prop := s.RecordsSound ∧ s.TargetsSound

section
variable {s t : State}

/-- Targets stay distinct where no window names a new one. -/
theorem State.TargetsSound.of_fewer (hs : s.TargetsSound)
    (fewer : ∀ n t', (t.win n).target = some t' → (s.win n).target = some t') : t.TargetsSound := by
  intro n m t' hn
  obtain ⟨other, only⟩ := hs n m t' (fewer n t' hn)
  exact ⟨other, fun hm => only (fewer m t' hm)⟩

theorem OwedLeaves.keeps_tableSound (h : OwedLeaves s t) (hs : s.TableSound) : t.TableSound := by
  refine ⟨fun n => ?_, hs.2.of_fewer fun n t' target => ?_⟩
  · rcases h.2 n with h | h <;> rw [h]
    · exact hs.1 n
    · exact (hs.1 n).dropOwed
  · rwa [Window.target_congr (h.state n)] at target

theorem State.RecordsSound.setWin (hs : s.RecordsSound) {n : Slot} {w : Window} (hw : w.Sound) :
    (s.setWin n w).RecordsSound := by
  intro m
  rw [State.setWin_win]
  split
  · exact hw
  · exact hs m

theorem State.RecordsSound.mapWindows (hs : s.RecordsSound) {f : Slot → Window → Window}
    (hf : ∀ n, (s.win n).Sound → (f n (s.win n)).Sound) : (s.mapWindows f).RecordsSound := by
  intro n
  rw [State.mapWindows_win]
  exact hf n (hs n)

/-- A sound window that names no new target may stand in place of any window. -/
theorem State.TableSound.setWin (hs : s.TableSound) {n : Slot} {w : Window} (hw : w.Sound)
    (fewer : ∀ t', w.target = some t' → (s.win n).target = some t') : (s.setWin n w).TableSound := by
  refine ⟨hs.1.setWin hw, hs.2.of_fewer fun m t' target => ?_⟩
  rw [State.setWin_win] at target
  split at target
  · next same => exact same ▸ fewer t' target
  · exact target

theorem State.TableSound.mapWindows (hs : s.TableSound) {f : Slot → Window → Window}
    (hf : ∀ n, (s.win n).Sound → (f n (s.win n)).Sound)
    (fewer : ∀ n t', (f n (s.win n)).target = some t' → (s.win n).target = some t') : (s.mapWindows f).TableSound := by
  refine ⟨hs.1.mapWindows hf, hs.2.of_fewer fun n t' target => ?_⟩
  rw [State.mapWindows_win] at target
  exact fewer n t' target

theorem Window.enterDrain_target (w : Window) (cause : DrainCause) (owed : Option Owed) (useCount : Nat) :
    (w.enterDrain cause owed useCount).target = none := by
  unfold Window.enterDrain
  split <;> rfl

theorem Window.withSelectedWord_state (w : Window) (selected : RecordWord) (word : Word) :
    (w.withSelectedWord selected word).state = w.state := by
  cases selected <;> rfl

/-- What the check of a supersede target gives: it is another slot, and no STAGED window names it (R82). -/
theorem State.targetGood_some {party : Party} {n t' : Slot} (h : s.targetGood party n (some t') = true) :
    t' ≠ n ∧ ∀ m, (s.win m).target ≠ some t' := by
  simp only [State.targetGood, State.namedAsTarget, allSlots, Bool.and_eq_true, bne_iff_ne, Bool.not_eq_true',
    List.any_eq_false, beq_iff_eq] at h
  exact ⟨h.1.1.1, fun m => h.2 m (List.mem_finRange m)⟩

/-- [STG] names a target that no other window names, and not itself (R82). -/
theorem State.TargetsSound.stage (hs : s.TargetsSound) {party : Party} {n : Slot} {base policy membership mask : Word}
    (target : s.targetGood party n (suppliedTarget base mask) = true) :
    (s.setWin n (stagedWindow party base policy membership mask)).TargetsSound := by
  have named : ∀ m t', ((s.setWin n (stagedWindow party base policy membership mask)).win m).target = some t' →
      (m = n ∧ t' ≠ n ∧ ∀ k, (s.win k).target ≠ some t') ∨ (m ≠ n ∧ (s.win m).target = some t') := by
    intro m t' h
    rw [State.setWin_win] at h
    split at h
    · next same =>
      change suppliedTarget base mask = some t' at h
      rw [h] at target
      exact .inl ⟨same, State.targetGood_some target⟩
    · next other => exact .inr ⟨other, h⟩
  intro m k t' hm
  rcases named m t' hm with ⟨rfl, self, fresh⟩ | ⟨-, old⟩
  · refine ⟨self, fun hk => ?_⟩
    rcases named k t' hk with ⟨rfl, -⟩ | ⟨-, old⟩
    · rfl
    · exact absurd old (fresh k)
  · refine ⟨(hs m m t' old).1, fun hk => ?_⟩
    rcases named k t' hk with ⟨-, -, fresh⟩ | ⟨-, old'⟩
    · exact absurd old (fresh m)
    · exact (hs m k t' old).2 old'

/-- A commit leaves sound records: staged windows committed, named targets out of LIVE (R86). -/
theorem State.TableSound.commit (hs : s.TableSound) (party : Party) : (s.mapWindows (s.committed party)).TableSound := by
  refine hs.mapWindows (fun n hw => ?_) fun n t' target => ?_ <;> unfold State.committed at *
  · split
    · next staged => exact hw.commit (Bool.and_eq_true _ _ ▸ staged).1
    · split
      · exact hw.enterDrain .supersede none _ nofun
      · exact hw
  · split at target
    · cases target
    · split at target
      · rw [Window.enterDrain_target] at target; cases target
      · exact target

theorem OwnOperated.keeps_tableSound {party : Party} (h : OwnOperated s party t) (hs : s.TableSound) : t.TableSound := by
  cases h with
  | staged n base policy membership mask _ _ fields template target =>
    exact ⟨hs.1.setWin (stagedWindow_sound fields template), hs.2.stage target⟩
  | abandoned n => exact hs.setWin (Window.cleared_sound _ _ nofun) nofun
  | committed => exact hs.commit party
  | retired n tag =>
    refine hs.setWin ((hs.1 n).enterDrain .retire _ _ fun o ho => ?_) fun t' target => ?_
    · cases ho; exact ⟨rfl, rfl⟩
    · rw [Window.enterDrain_target] at target; cases target
  | renewed n reload _ live =>
    have live := Window.isLive_iff.mp live
    exact hs.setWin ((hs.1 n).release live rfl rfl rfl rfl (BitVec.le_refl _) id) fun t' target => target
  | modified n selected word _ present =>
    refine hs.setWin ((hs.1 n).withSelectedWord present selected word) fun t' target => ?_
    rwa [Window.target_congr (Window.withSelectedWord_state _ _ _)] at target
  | stays => exact hs
  | expiryTaken => exact hs

theorem Operated.keeps_tableSound {party : Party} (h : Operated s party t) (hs : s.TableSound) : t.TableSound := by
  cases h with
  | own t h => exact h.keeps_tableSound hs
  | moved giver receiver first last ownership =>
    have moves : State.TableSound { s with host := { s.host with ownership := ownership } } := hs
    refine moves.mapWindows (fun n hw => ?_) fun n t' target => ?_
    · split
      · next m =>
        simp only [Window.moves, Bool.and_eq_true] at m
        exact hw.move m.1.1.2 receiver
      · exact hw
    · split at target <;> exact target
  | _ => exact hs

theorem State.Moves.keeps_tableSound (h : s.Moves t) (hs : s.TableSound) : t.TableSound := by
  cases h with
  | poweredOn straps =>
    have win : ∀ n, (s.powerOn straps).win n = Window.cleared (powerOnOwner straps n) none := fun n => by
      simp [State.win, State.powerOn, powerOnTable]
    refine ⟨fun n => ?_, fun n m t' target => ?_⟩
    · rw [win]; exact Window.cleared_sound _ _ nofun
    · rw [win] at target; cases target
  | fabricFreed =>
    have emptied : State.TableSound { s with lookup := s.lookup.emptied, pool := TicketPool.emptied } := hs
    refine emptied.mapWindows (fun n hw => ?_) fun n t' target => ?_ <;> unfold Window.atFabricReset at *
    · split
      · exact Window.endDrain_sound _ _
      · exact hw
    · split at target
      · cases target
      · exact target
  | drainCompleted k r n =>
    have returned : (s.ticketReturned k n).TableSound := hs
    exact returned.setWin (Window.endDrain_sound _ _) nofun
  | drainForced n =>
    have orphaned : (s.orphanTickets n).TableSound := hs
    exact orphaned.setWin (Window.endDrain_sound _ _) nofun
  | drainAged n cause age draining => exact hs.setWin ((hs.1 n).olderDrain draining _) nofun
  | freshCleared n live =>
    obtain ⟨lease, left⟩ := (hs.1 n).leaseLeft live
    exact hs.setWin ((hs.1 n).release live rfl rfl rfl rfl lease left) fun t' target => target
  | leaseAged n live more =>
    obtain ⟨lease, -⟩ := (hs.1 n).leaseLeft live
    refine hs.setWin ((hs.1 n).release live rfl rfl rfl rfl ?_ fun _ => ?_) fun t' target => target
    · show (s.win n).remaining - 1#8 ≤ (s.win n).reload
      bv_omega
    · show (s.win n).remaining - 1#8 ≠ 0#8
      bv_omega
  | leaseExpired n live =>
    refine hs.setWin ?_ fun t' target => ?_
    · unfold Window.enterDrain
      split
      · exact Window.cleared_sound _ _ nofun
      · exact ⟨(hs.1 n).1, BitVec.le_def.mpr (Nat.zero_le _), rfl, nofun⟩
    · rw [Window.enterDrain_target] at target; cases target
  | operated party t h => exact h.keeps_tableSound hs
  | _ => exact hs

theorem State.Becomes.keeps_tableSound (h : s.Becomes t) (hs : s.TableSound) : t.TableSound := by
  obtain ⟨u, v, granted, moves, leaves⟩ := h.moves
  exact leaves.keeps_tableSound (moves.keeps_tableSound (granted.keeps_tableSound hs))

end
end Sys2Proof.Machine
end

section
open Sys2Proof Sys2Proof.Machine

/-- Settles O3, by the one move that a command makes among the windows. -/
theorem stepKeepsRecords : Obligations.StepKeepsRecords :=
  fun _ _ records targets h =>
    step_keeps (P := State.TableSound) (fun _ _ hs => hs) (fun _ _ becomes hs => becomes.keeps_tableSound hs)
      ⟨records, targets⟩ h

end

section
/-!
Use counts and tickets (R53, R54, R79): each move keeps a slot's use count the number of tickets counted against it.
-/
namespace Sys2Proof.Machine

/-- Two counts over the tickets that differ at one ticket alone. -/
theorem countP_allTickets_update {p q : TicketNo → Bool} (k : TicketNo) (h : ∀ j, j ≠ k → p j = q j) :
    allTickets.countP p + (q k).toNat = allTickets.countP q + (p k).toNat := by
  have split : ∀ f : TicketNo → Bool,
      allTickets.countP f = (allTickets.erase k).countP f + (f k).toNat := by
    intro f
    have perm : allTickets.Perm (k :: allTickets.erase k) := List.perm_cons_erase (List.mem_finRange k)
    rw [perm.countP_eq f, List.countP_cons]
    cases f k <;> rfl
  have rest : (allTickets.erase k).countP p = (allTickets.erase k).countP q := by
    refine List.countP_congr fun j hj => ?_
    rw [h j ((List.Nodup.mem_erase_iff (List.nodup_finRange 32)).mp hj).1]
  rw [split p, split q, rest]
  omega

/-- The state of a window suits a use count: 0 for FREE and STAGED windows, above 0 for DRAINING ones (R54, R79). -/
def Window.Suits (w : Window) (useCount : Nat) : Prop :=
  (w.isFree = true ∨ w.isStaged = true → useCount = 0) ∧ (w.isDraining = true → useCount ≠ 0)

theorem Window.Suits.of_state {w v : Window} {useCount : Nat} (h : w.Suits useCount) (state : v.state = w.state) :
    v.Suits useCount := by
  unfold Window.Suits Window.isFree Window.isStaged Window.isDraining at *
  rwa [state]

/-- A LIVE window suits any use count. -/
theorem Window.suits_of_live {w : Window} (live : w.state = .live) (useCount : Nat) : w.Suits useCount := by
  simp [Window.Suits, Window.isFree, Window.isStaged, Window.isDraining, live]

/-- A window that does not drain suits the use count 0. -/
theorem Window.suits_zero {w : Window} (still : w.isDraining = false) : w.Suits 0 :=
  ⟨fun _ => rfl, fun draining => nomatch still.symm.trans draining⟩

/-- A window that leaves LIVE suits any use count: it is FREE at 0 and DRAINING above (R61). -/
theorem Window.enterDrain_suits (w : Window) (cause : DrainCause) (owed : Option Owed) (useCount : Nat) :
    (w.enterDrain cause owed useCount).Suits useCount := by
  unfold Window.enterDrain
  split
  · next unused => exact unused ▸ Window.suits_zero rfl
  · next used => exact ⟨fun idle => absurd idle (by simp [Window.isFree, Window.isStaged]), fun _ => used⟩

theorem Window.endDrain_suits (w : Window) (outcome : DrainOutcome) : (w.endDrain outcome).Suits 0 :=
  Window.suits_zero rfl

/-! ### Counted tickets -/

theorem Ticket.names_counted (r : Requester) (m n : Slot) :
    ((Ticket.counted r m).names n).toNat = if n = m then 1 else 0 := by
  by_cases h : n = m
  · simp [Ticket.names, h]
  · have other : m ≠ n := Ne.symm h
    simp [Ticket.names, h, other]

theorem Ticket.names_orphanedFrom (x : Ticket) (n m : Slot) :
    (x.orphanedFrom n).names m = if m = n then false else x.names m := by
  cases x with
  | free => simp [Ticket.orphanedFrom, Ticket.names]
  | orphan => simp [Ticket.orphanedFrom, Ticket.names]
  | counted r k =>
    by_cases h : k = n <;> by_cases h' : m = n <;> simp [Ticket.orphanedFrom, Ticket.names, h, h']
    exact fun same => h' same.symm

section
variable {s t : State}

theorem State.countedTickets_congr (ticket : ∀ k, t.ticket k = s.ticket k) (n : Slot) :
    t.countedTickets n = s.countedTickets n := by
  simp only [State.countedTickets, ticket]

theorem State.countedTickets_setTicket (s : State) (k : TicketNo) (x : Ticket) (n : Slot) :
    (s.setTicket k x).countedTickets n + ((s.ticket k).names n).toNat = s.countedTickets n + (x.names n).toNat := by
  have h := countP_allTickets_update (p := fun j => ((s.setTicket k x).ticket j).names n)
    (q := fun j => (s.ticket j).names n) k (fun j hj => by simp [hj])
  simpa only [State.countedTickets, State.setTicket_ticket, if_true] using h

theorem State.countedTickets_orphanTickets (s : State) (n m : Slot) :
    (s.orphanTickets n).countedTickets m = if m = n then 0 else s.countedTickets m := by
  simp only [State.countedTickets, State.orphanTickets_ticket, Ticket.names_orphanedFrom]
  split <;> simp

theorem State.countedTickets_of_free (free : ∀ k, s.ticket k = .free) (n : Slot) : s.countedTickets n = 0 := by
  simp [State.countedTickets, free, Ticket.names]

/-! ### Windows under the tickets -/

theorem State.TicketsSound.suits (hs : s.TicketsSound) (n : Slot) : (s.win n).Suits (s.use n) := (hs n).2

theorem State.TicketsSound.of_counts (hs : s.TicketsSound) (use : ∀ n, t.use n = s.use n)
    (ticket : ∀ k, t.ticket k = s.ticket k) (suits : ∀ n, (t.win n).Suits (s.use n)) : t.TicketsSound := by
  intro n
  rw [use, State.countedTickets_congr ticket]
  exact ⟨(hs n).1, suits n⟩

theorem OwedLeaves.keeps_ticketsSound (h : OwedLeaves s t) (hs : s.TicketsSound) : t.TicketsSound :=
  hs.of_counts h.use (fun k => by simp only [State.ticket, h.1]) fun n => (hs.suits n).of_state (h.state n)

/-- A window may be replaced by one whose state suits the use count of its slot. -/
theorem State.TicketsSound.setWin (hs : s.TicketsSound) {n : Slot} {w : Window} (suits : w.Suits (s.use n)) :
    (s.setWin n w).TicketsSound := by
  refine hs.of_counts (fun _ => rfl) (fun _ => rfl) fun m => ?_
  rw [State.setWin_win]
  split
  · next same => exact same ▸ suits
  · exact hs.suits m

theorem State.TicketsSound.mapWindows (hs : s.TicketsSound) {f : Slot → Window → Window}
    (suits : ∀ n, (f n (s.win n)).Suits (s.use n)) : (s.mapWindows f).TicketsSound := by
  refine hs.of_counts (s.mapWindows_use f) (s.mapWindows_ticket f) fun n => ?_
  rw [State.mapWindows_win]
  exact suits n

theorem State.TicketsSound.use_of_staged (hs : s.TicketsSound) {n : Slot} (staged : (s.win n).isStaged = true) :
    s.use n = 0 := (hs.suits n).1 (.inr staged)

theorem State.TicketsSound.commit (hs : s.TicketsSound) (party : Party) :
    (s.mapWindows (s.committed party)).TicketsSound := by
  refine hs.mapWindows fun n => ?_
  unfold State.committed
  split
  · exact Window.suits_of_live rfl _
  · split
    · exact Window.enterDrain_suits _ _ _ _
    · exact hs.suits n

theorem OwnOperated.keeps_ticketsSound {party : Party} (h : OwnOperated s party t) (hs : s.TicketsSound) :
    t.TicketsSound := by
  cases h with
  | staged n _ _ _ _ _ free =>
    refine hs.setWin ?_
    rw [(hs.suits n).1 (.inl free)]
    exact Window.suits_zero rfl
  | abandoned n _ staged =>
    refine hs.setWin ?_
    rw [hs.use_of_staged staged]
    exact Window.suits_zero rfl
  | committed => exact hs.commit party
  | retired n tag => exact hs.setWin (Window.enterDrain_suits _ _ _ _)
  | renewed n reload _ live => exact hs.setWin (Window.suits_of_live (Window.isLive_iff.mp live) _)
  | modified n selected word => exact hs.setWin ((hs.suits n).of_state (Window.withSelectedWord_state _ _ _))
  | stays => exact hs
  | expiryTaken => exact hs

theorem Operated.keeps_ticketsSound {party : Party} (h : Operated s party t) (hs : s.TicketsSound) :
    t.TicketsSound := by
  cases h with
  | own t h => exact h.keeps_ticketsSound hs
  | moved giver receiver first last ownership =>
    have raised : State.TicketsSound { s with host := { s.host with ownership := ownership } } := hs
    refine raised.mapWindows fun n => (hs.suits n).of_state ?_
    split <;> rfl
  | _ => exact hs

/-- A counted ticket's slot has a use count above 0, so it is neither FREE nor STAGED (R54). -/
theorem State.TicketsSound.use_of_counted (hs : s.TicketsSound) {k : TicketNo} {r : Requester} {n : Slot}
    (counted : s.ticket k = .counted r n) : 0 < s.use n := by
  rw [(hs n).1]
  exact List.countP_pos_iff.mpr ⟨k, List.mem_finRange k, by simp [counted, Ticket.names]⟩

/-- The counts after a counted ticket is returned: its slot has one less (R58). -/
theorem State.TicketsSound.returned_counts (hs : s.TicketsSound) {k : TicketNo} {r : Requester} {n : Slot}
    (counted : s.ticket k = .counted r n) (m : Slot) :
    (s.ticketReturned k n).use m = (s.ticketReturned k n).countedTickets m := by
  have change := s.countedTickets_setTicket k .free m
  have before := (hs m).1
  rw [counted, Ticket.names_counted, Ticket.names, Bool.toNat_false] at change
  have use : (s.ticketReturned k n).use m = if m = n then s.use n - 1 else s.use m := by
    simp [State.ticketReturned]
  have tickets : (s.ticketReturned k n).countedTickets m = (s.setTicket k .free).countedTickets m := rfl
  rw [use, tickets]
  split at change
  · next same => rw [if_pos same, ← same]; omega
  · next other => rw [if_neg other]; omega

/-- The counts after a free ticket is allocated: its slot has one more (R55). -/
theorem State.TicketsSound.allocated_counts (hs : s.TicketsSound) {k : TicketNo} (r : Requester) (n : Slot)
    (free : s.ticket k = .free) (m : Slot) : (s.allocate k r n).use m = (s.allocate k r n).countedTickets m := by
  have change := s.countedTickets_setTicket k (.counted r n) m
  have before := (hs m).1
  rw [free, Ticket.names_counted, Ticket.names, Bool.toNat_false] at change
  have tickets : (s.allocate k r n).countedTickets m = (s.setTicket k (.counted r n)).countedTickets m := rfl
  rw [State.allocate_use, tickets]
  split at change
  · next same => subst same; rw [if_pos rfl]; omega
  · next other => rw [if_neg other]; omega

theorem State.Moves.keeps_ticketsSound (h : s.Moves t) (hs : s.TicketsSound) : t.TicketsSound := by
  cases h with
  | stays => exact hs
  | poweredOn straps =>
    intro n
    have win : (s.powerOn straps).win n = Window.cleared (powerOnOwner straps n) none := by
      simp [State.win, State.powerOn, powerOnTable]
    have use : (s.powerOn straps).use n = 0 := by simp [State.use, State.powerOn]
    have free : ∀ k, (s.powerOn straps).ticket k = .free := fun k => by simp [State.ticket, State.powerOn]
    rw [win, use, State.countedTickets_of_free free]
    exact ⟨rfl, Window.suits_zero rfl⟩
  | fabricFreed =>
    intro n
    have win : s.fabricFreed.win n = (s.win n).atFabricReset := State.mapWindows_win _ _ n
    have use : s.fabricFreed.use n = 0 := by simp [State.use, State.fabricFreed, TicketPool.emptied]
    have free : ∀ k, s.fabricFreed.ticket k = .free := fun k => by
      simp [State.ticket, State.fabricFreed, TicketPool.emptied]
    rw [win, use, State.countedTickets_of_free free]
    refine ⟨rfl, Window.suits_zero ?_⟩
    unfold Window.atFabricReset
    split
    · rfl
    · next still => exact Bool.eq_false_iff.mpr still
  | ticketTaken k r n free live =>
    intro m
    refine ⟨hs.allocated_counts r n free m, ?_⟩
    change (s.win m).Suits _
    rw [State.allocate_use]
    split
    · next same => exact Window.suits_of_live (same ▸ live) _
    · exact hs.suits m
  | orphanFreed k r orphan =>
    intro m
    have change := s.countedTickets_setTicket k .free m
    rw [orphan] at change
    refine ⟨?_, hs.suits m⟩
    exact (hs m).1.trans (Nat.add_right_cancel change).symm
  | ticketReturned k r n counted more =>
    intro m
    refine ⟨hs.returned_counts counted m, ?_⟩
    change (s.win m).Suits ((s.ticketReturned k n).use m)
    have use : (s.ticketReturned k n).use m = if m = n then s.use n - 1 else s.use m := by
      simp [State.ticketReturned]
    rw [use]
    split
    · next same =>
      subst same
      refine ⟨fun idle => ?_, more⟩
      rw [(hs.suits m).1 idle]
    · exact hs.suits m
  | drainCompleted k r n counted _ last =>
    intro m
    refine ⟨hs.returned_counts counted m, ?_⟩
    have use : (s.ticketReturned k n).use m = if m = n then s.use n - 1 else s.use m := by
      simp [State.ticketReturned]
    change Window.Suits _ ((s.ticketReturned k n).use m)
    rw [State.setWin_win, use, last]
    split
    · exact Window.endDrain_suits _ _
    · exact hs.suits m
  | drainForced n =>
    intro m
    change (s.orphanTickets n).use m = (s.orphanTickets n).countedTickets m ∧ Window.Suits _ ((s.orphanTickets n).use m)
    rw [State.setWin_win, State.orphanTickets_use, State.countedTickets_orphanTickets]
    split
    · exact ⟨rfl, Window.endDrain_suits _ _⟩
    · exact ⟨(hs m).1, hs.suits m⟩
  | drainAged n cause age draining =>
    refine hs.setWin ⟨nofun, fun _ => (hs.suits n).2 ?_⟩
    exact Window.isDraining_iff.mpr ⟨cause, age, draining⟩
  | freshCleared n => exact hs.setWin ((hs.suits n).of_state rfl)
  | leaseAged n => exact hs.setWin ((hs.suits n).of_state rfl)
  | leaseExpired n => exact hs.setWin (Window.enterDrain_suits _ _ _ _)
  | operated party t h => exact h.keeps_ticketsSound hs

theorem State.Becomes.keeps_ticketsSound (h : s.Becomes t) (hs : s.TicketsSound) : t.TicketsSound := by
  obtain ⟨u, v, granted, moves, leaves⟩ := h.moves
  exact leaves.keeps_ticketsSound (moves.keeps_ticketsSound (granted.keeps_ticketsSound hs))

end
end Sys2Proof.Machine
end

section
open Sys2Proof Sys2Proof.Machine

/-- Settles O4, by the one move that a command makes among the windows and the tickets. -/
theorem stepKeepsUseCounts : Obligations.StepKeepsUseCounts :=
  fun _ _ hs h => step_keeps (fun _ _ hs => hs) (fun _ _ becomes hs => becomes.keeps_ticketsSound hs) hs h

end

section
/-!
Windows stay the other party's (R3), and a template stays in place (R1).
-/
namespace Sys2Proof.Machine

variable {s t : State}

/-! ### The template of a window -/

/-- A window that is not FREE before and not FREE after has the base and the mask it had. -/
def TemplatesStay (s t : State) : Prop :=
  ∀ n : Slot, (s.win n).isFree = false → (t.win n).isFree = false →
    (t.win n).base = (s.win n).base ∧ (t.win n).mask = (s.win n).mask

theorem TemplatesStay.of_eq (h : ∀ n, t.win n = s.win n) : TemplatesStay s t := fun n _ _ => by
  simp [h n]

theorem TemplatesStay.setWin {n : Slot} {w : Window}
    (h : (s.win n).isFree = false → w.isFree = false → w.base = (s.win n).base ∧ w.mask = (s.win n).mask) :
    TemplatesStay s (s.setWin n w) := by
  intro m before after
  rw [State.setWin_win] at *
  split at *
  · next same => subst same; rw [if_pos rfl]; exact h before after
  · next other => rw [if_neg other]; exact ⟨rfl, rfl⟩

theorem TemplatesStay.mapWindows {f : Slot → Window → Window}
    (h : ∀ n w, (f n w).isFree = false → (f n w).base = w.base ∧ (f n w).mask = w.mask) :
    TemplatesStay s (s.mapWindows f) := by
  intro n _ after
  rw [State.mapWindows_win] at *
  exact h n _ after

theorem Window.enterDrain_template (w : Window) (cause : DrainCause) (owed : Option Owed) (useCount : Nat) :
    (w.enterDrain cause owed useCount).isFree = false →
      (w.enterDrain cause owed useCount).base = w.base ∧ (w.enterDrain cause owed useCount).mask = w.mask := by
  unfold Window.enterDrain
  split
  · exact nofun
  · exact fun _ => ⟨rfl, rfl⟩

theorem Window.atFabricReset_template (w : Window) :
    w.atFabricReset.isFree = false → w.atFabricReset.base = w.base ∧ w.atFabricReset.mask = w.mask := by
  unfold Window.atFabricReset
  split
  · exact nofun
  · exact fun _ => ⟨rfl, rfl⟩

theorem OwnOperated.templatesStay {party : Party} (h : OwnOperated s party t) : TemplatesStay s t := by
  cases h with
  | staged n _ _ _ _ _ free => exact .setWin fun notFree => nomatch notFree.symm.trans free
  | abandoned n => exact .setWin nofun
  | committed =>
    refine .mapWindows fun n w => ?_
    unfold State.committed
    split
    · exact fun _ => ⟨rfl, rfl⟩
    · split
      · exact w.enterDrain_template _ _ _
      · exact fun _ => ⟨rfl, rfl⟩
  | retired n tag => exact .setWin fun _ => Window.enterDrain_template _ _ _ _
  | renewed n => exact .setWin fun _ _ => ⟨rfl, rfl⟩
  | modified n selected word => exact .setWin fun _ _ => by cases selected <;> exact ⟨rfl, rfl⟩
  | _ => exact .of_eq fun _ => rfl

theorem Operated.templatesStay {party : Party} (h : Operated s party t) : TemplatesStay s t := by
  cases h with
  | own t h => exact h.templatesStay
  | moved giver receiver first last ownership =>
    have kept : ∀ (n : Slot) (w : Window),
        (if w.moves giver first last n then { w with owner := receiver } else w).base = w.base ∧
        (if w.moves giver first last n then { w with owner := receiver } else w).mask = w.mask := by
      intro n w
      split <;> exact ⟨rfl, rfl⟩
    intro n _ _
    rw [State.mapWindows_win]
    exact kept n (s.win n)
  | _ => exact .of_eq fun _ => rfl

theorem State.Moves.templatesStay (h : s.Moves t) : TemplatesStay s t := by
  cases h with
  | poweredOn straps =>
    intro n _ after
    have win : (s.powerOn straps).win n = Window.cleared (powerOnOwner straps n) none := by
      simp [State.win, State.powerOn, powerOnTable]
    rw [win] at after
    cases after
  | fabricFreed =>
    intro n _ after
    have win : s.fabricFreed.win n = (s.win n).atFabricReset := State.mapWindows_win _ _ n
    rw [win] at after ⊢
    exact (s.win n).atFabricReset_template after
  | drainCompleted k r n => exact TemplatesStay.setWin (s := s.ticketReturned k n) nofun
  | drainForced n => exact TemplatesStay.setWin (s := s.orphanTickets n) nofun
  | drainAged n => exact .setWin fun _ _ => ⟨rfl, rfl⟩
  | freshCleared n => exact .setWin fun _ _ => ⟨rfl, rfl⟩
  | leaseAged n => exact .setWin fun _ _ => ⟨rfl, rfl⟩
  | leaseExpired n => exact .setWin fun _ => Window.enterDrain_template _ _ _ _
  | operated party t h => exact h.templatesStay
  | _ => exact .of_eq fun _ => rfl

theorem OwedLeaves.isFree (h : OwedLeaves s t) (n : Slot) : (t.win n).isFree = (s.win n).isFree := by
  unfold Window.isFree
  rw [h.state]

theorem State.Becomes.templatesStay (h : s.Becomes t) : TemplatesStay s t := by
  obtain ⟨u, v, granted, moves, leaves⟩ := h.moves
  intro n before after
  have move := moves.templatesStay n (by rwa [granted.isFree]) (by rwa [← leaves.isFree])
  rw [granted.base, granted.mask] at move
  rwa [leaves.base, leaves.mask]

/-! ### The slots of the other party -/

/-- The targets of a party's STAGED windows pass the test of a commit (R85): they are LIVE and the party's. -/
theorem State.failingStaged_none {party : Party} (h : s.failingStaged party = none) {n t' : Slot}
    (staged : s.stagedBy party n = true) (target : (s.win n).target = some t') :
    (s.win t').isLive = true ∧ (s.win t').owner = party := by
  simp only [State.failingStaged, Option.bind_eq_none_iff] at h
  by_contra fails
  have failing : s.targetFails party n = true := by
    simpa [State.targetFails, staged, target, imp_iff_not_or] using fails
  obtain ⟨m, hm⟩ := Option.isSome_iff_exists.mp
    (List.find?_isSome.mpr ⟨n, List.mem_finRange n, failing⟩ : (allSlots.find? (s.targetFails party)).isSome)
  have named := List.find?_some hm
  have none := h m hm
  cases target' : (s.win m).target <;> simp [State.targetFails, target'] at named none

/-- No operation on a party's own slots changes a slot of the other party (R3). -/
theorem OwnOperated.keeps_others {party : Party} (h : OwnOperated s party t) {n : Slot}
    (other : (s.win n).owner ≠ party) : t.win n = s.win n := by
  have spared : ∀ (m : Slot) (w : Window), (s.win m).owner = party → (s.setWin m w).win n = s.win n := by
    intro m w owner
    rw [State.setWin_win, if_neg]
    rintro rfl
    exact other owner
  cases h with
  | staged m _ _ _ _ owner => exact spared m _ owner
  | abandoned m owner => exact spared m _ owner
  | committed passes =>
    have notStaged : s.stagedBy party n = false := by simp [State.stagedBy, other]
    have notNamed : s.namedBy party n = false := by
      by_contra named
      simp only [State.namedBy, Bool.not_eq_false, List.any_eq_true, Bool.and_eq_true, beq_iff_eq] at named
      obtain ⟨m, -, staged, target⟩ := named
      exact other (State.failingStaged_none passes staged target).2
    rw [State.mapWindows_win]
    simp [State.committed, notStaged, notNamed]
  | retired m _ owner => exact spared m _ owner
  | renewed m _ owner => exact spared m _ owner
  | modified m _ _ owner => exact spared m _ owner
  | _ => rfl

/-- A party's command on its own slots leaves the other party's windows. -/
theorem PartyCommand.keeps_others {operation : Party → Command → State → State × Option Response}
    (row : PartyCommand operation) (party : Party) (sym : CommandSym) {n : Slot} (other : (s.win n).owner ≠ party) :
    (s.whilePowered (s.runGranted party sym operation)).win n = s.win n := by
  unfold State.whilePowered
  split
  · rfl
  · obtain h | ⟨c, -, -, -, h⟩ := s.runGranted_cases party sym operation <;> rw [h]
    have finished := State.finishCommand_windows
      (operation party c (s.grantTo (engineOf party))).1 party (operation party c (s.grantTo (engineOf party))).2
    rw [State.win, finished]
    exact (row.operated (s.grantTo (engineOf party)) party c).keeps_others other

/-- A host's command that leaves the windows alone in its operation leaves them alone. -/
theorem State.runGranted_keeps_windows {sym : CommandSym}
    {operation : Party → Command → State → State × Option Response}
    (keeps : ∀ c u, (operation .host c u).1.table.windows = u.table.windows) (n : Slot) :
    (s.runGranted .host sym operation).win n = s.win n := by
  obtain h | ⟨c, -, -, -, h⟩ := s.runGranted_cases .host sym operation <;> rw [h]
  rw [State.win, State.finishCommand_windows]
  simp only [keeps]
  rfl

theorem State.runSupervisor_keeps_windows {sym : CommandSym}
    {operation : Party → Command → State → State × Option Response}
    (keeps : ∀ c u, (operation .host c u).1.table.windows = u.table.windows) (n : Slot) :
    (s.runSupervisor sym operation).win n = s.win n := by
  unfold State.runSupervisor
  split
  · exact State.runGranted_keeps_windows keeps n
  · unfold State.refuseUserPrivilege
    split
    · rfl
    · split
      · exact congrArg (fun table => table.windows[n.val]) (State.takeInHand_table _)
      · rfl

theorem State.whilePowered_win {n : Slot} (h : t.win n = s.win n) : (s.whilePowered t).win n = s.win n := by
  unfold State.whilePowered
  split
  · rfl
  · exact h

end Sys2Proof.Machine
end

section
open Sys2Proof Sys2Proof.Machine

/-- Settles O9, by the one move that a command makes among the windows. -/
theorem templateStaysInPlace : Obligations.TemplateStaysInPlace :=
  fun _ _ _ n h before after => (becomes_of_exec h).templatesStay n before after

/-- Settles O8: the commands of both parties by the checks of their operations, the host's other table commands because
their operations write no window. -/
theorem tableCommandKeepsOtherPartysSlots : Obligations.TableCommandKeepsOtherPartysSlots := by
  refine ⟨fun party s t n other i row h => ?_, fun s t n i row h => ?_⟩
  · simp only [List.mem_cons, List.not_mem_nil, or_false] at row
    rcases row with rfl | rfl | rfl | rfl | rfl | rfl | rfl | rfl <;> cases h
    · exact PartyCommand.stg.keeps_others party .stg other
    · exact PartyCommand.abn.keeps_others party .abn other
    · exact PartyCommand.cmt.keeps_others party .cmt other
    · exact PartyCommand.rtr.keeps_others party .rtr other
    · exact PartyCommand.rnw.keeps_others party .rnw other
    · exact PartyCommand.mod.keeps_others party .mod other
    · exact PartyCommand.qry.keeps_others party .qry other
    · exact PartyCommand.rex.keeps_others party .rex other
  · have sdf : ∀ c u, (sdfOperation .host c u).1.table.windows = u.table.windows := by
      intro c u
      unfold sdfOperation
      split <;> rfl
    simp only [List.mem_cons, List.not_mem_nil, or_false] at row
    rcases row with rfl | rfl | rfl | rfl <;> cases h <;> refine State.whilePowered_win ?_
    · exact State.runSupervisor_keeps_windows sdf n
    · exact State.runSupervisor_keeps_windows (fun _ _ => rfl) n
    · exact State.runSupervisor_keeps_windows (fun _ _ => rfl) n
    · exact State.runGranted_keeps_windows (fun _ _ => rfl) n

end

section
/-!
Owed responses that wait (R11, R63, R147, R148, R161): which slot's response waits, where there is room, and which
responses enter when a party's waiting ones are offered one after another.
-/
namespace Sys2Proof.Machine

/-! ### Waiting responses of a window -/

theorem Window.waitingResponse_eq_some_iff {w : Window} {party : Party} {r : Response} :
    w.waitingResponse party = some r ↔
      w.isFree = true ∧ ∃ tag outcome, w.owed = some ⟨party, tag, some outcome⟩ ∧ r = ⟨tag, outcome.status, []⟩ := by
  unfold Window.waitingResponse
  split
  · next p tag outcome owed =>
    simp only [Bool.and_eq_true, beq_iff_eq, Option.ite_none_right_eq_some, Option.some.injEq, owed, Owed.mk.injEq]
    constructor
    · rintro ⟨⟨free, rfl⟩, rfl⟩
      exact ⟨free, tag, outcome, ⟨rfl, rfl, rfl⟩, rfl⟩
    · rintro ⟨free, _, _, ⟨rfl, rfl, rfl⟩, rfl⟩
      exact ⟨⟨free, rfl⟩, rfl⟩
  · next owed => simp [owed]
  · next owed => simp [owed]

theorem Window.waitingResponse_of_owed_none {w : Window} (h : w.owed = none) (party : Party) :
    w.waitingResponse party = none := by
  simp [Window.waitingResponse, h]

theorem Window.waitingResponse_of_notFree {w : Window} (h : w.isFree = false) (party : Party) :
    w.waitingResponse party = none := by
  rw [Option.eq_none_iff_forall_ne_some]
  intro r hr
  exact nomatch h.symm.trans (Window.waitingResponse_eq_some_iff.mp hr).1

/-- What waits depends on the state of the window and its owed response. -/
theorem Window.waitingResponse_congr {w v : Window} (state : w.state = v.state) (owed : w.owed = v.owed)
    (party : Party) : w.waitingResponse party = v.waitingResponse party := by
  unfold Window.waitingResponse Window.isFree
  rw [state, owed]

/-- A slot holds one owed response, so it waits for one party at most. -/
theorem Window.waitingResponse_unique {w : Window} {p q : Party} {r : Response} (h : w.waitingResponse p = some r)
    (other : q ≠ p) : w.waitingResponse q = none := by
  rw [Option.eq_none_iff_forall_ne_some]
  intro r' hr'
  obtain ⟨-, _, _, owed, -⟩ := Window.waitingResponse_eq_some_iff.mp h
  obtain ⟨-, _, _, owed', -⟩ := Window.waitingResponse_eq_some_iff.mp hr'
  rw [owed] at owed'
  cases owed'
  exact other rfl

/-! ### Waiting slots and free places of a party -/

/-- The slots whose owed response of a party waits, in ascending order. -/
def State.waitingSlots (s : State) (party : Party) : List Slot :=
  allSlots.filter fun n => ((s.win n).waitingResponse party).isSome

/-- The places that a party has for responses: those of the Response Queue, or the one response register. -/
def State.placesFor (s : State) : Party → Nat
  | .host => 16 - s.host.responses.length
  | .maint => if s.maint.response = none then 1 else 0

section
variable (s : State)

theorem State.roomFor_iff (party : Party) : s.roomFor party = true ↔ 0 < s.placesFor party := by
  cases party with
  | host =>
    have places : s.placesFor .host = 16 - s.host.responses.length := rfl
    rw [places, Nat.sub_pos_iff_lt]
    exact decide_eq_true_iff
  | maint => cases h : s.maint.response <;> simp [State.roomFor, State.placesFor, h]

theorem State.mem_waitingSlots (party : Party) (n : Slot) :
    n ∈ s.waitingSlots party ↔ (s.win n).waitingResponse party ≠ none := by
  simp [State.waitingSlots, allSlots, Option.isSome_iff_ne_none]

theorem State.waitingSlots_nodup (party : Party) : (s.waitingSlots party).Nodup :=
  (List.nodup_finRange 64).filter _

theorem State.waitingSlots_length (party : Party) : (s.waitingSlots party).length ≤ 64 :=
  (List.length_filter_le _ _).trans (List.length_finRange (n := 64)).le

theorem State.waitingSlots_eq_nil (party : Party) :
    s.waitingSlots party = [] ↔ ∀ n, (s.win n).waitingResponse party = none := by
  simp [List.eq_nil_iff_forall_not_mem, State.mem_waitingSlots]

/-- The slot at the head of the waiting ones is the lowest. -/
theorem State.lowestWaits_of_head {party : Party} {n : Slot} {rest : List Slot}
    (h : s.waitingSlots party = n :: rest) : ∃ r, LowestWaits s party n r := by
  refine (s.lowestWaiting_some party n).mp ?_
  unfold State.lowestWaiting
  rw [← List.head?_filter]
  exact congrArg List.head? h

end

/-! ### Responses that enter -/

/-- The owed responses of the listed slots have entered their party's queue or register, in the list's order, and the
slots are no longer held. -/
def Entered (party : Party) (slots : List Slot) (s t : State) : Prop :=
  (∀ m : Slot, t.win m = if m ∈ slots then { s.win m with owed := none } else s.win m) ∧
  match party with
  | .host => t.maint = s.maint ∧ t.host = { s.host with
      responses := s.host.responses ++ slots.filterMap fun m => (s.win m).waitingResponse .host }
  | .maint => t.host = s.host ∧ t.maint = { s.maint with
      response := (slots.filterMap fun m => (s.win m).waitingResponse .maint).head?.or s.maint.response }

theorem Entered.nothing (party : Party) (s : State) : Entered party [] s s := by
  cases party <;> simp [Entered]

section
variable {s t : State}

/-- After the lowest waiting response has entered, the others wait, and one place less is free. -/
theorem State.admitOwed_head {party : Party} {n : Slot} {rest : List Slot} (head : s.waitingSlots party = n :: rest)
    (room : 0 < s.placesFor party) :
    Entered party [n] s (s.admitOwed party) ∧ (s.admitOwed party).waitingSlots party = rest ∧
      (s.admitOwed party).placesFor party = s.placesFor party - 1 := by
  obtain ⟨r, lowest⟩ := s.lowestWaits_of_head head
  rw [s.admitOwed_enters party n r lowest ((s.roomFor_iff party).mpr room)]
  have win : ∀ m, ((s.setWin n { s.win n with owed := none }).place party r).win m =
      if m = n then { s.win n with owed := none } else s.win m := by simp
  refine ⟨⟨fun m => ?_, ?_⟩, ?_, ?_⟩
  · rw [win]
    by_cases h : m = n
    · simp [h]
    · simp [h]
  · cases party <;> simp [State.place, lowest.1]
  · have others : (s.waitingSlots party).filter (· ≠ n) = rest := by
      have nodup := s.waitingSlots_nodup party
      rw [head, List.nodup_cons] at nodup
      rw [head, List.filter_cons_of_neg (by simp)]
      exact List.filter_eq_self.mpr fun m hm => decide_eq_true fun same => nodup.1 (same ▸ hm)
    rw [← others]
    unfold State.waitingSlots
    rw [List.filter_filter]
    refine List.filter_congr fun m _ => ?_
    rw [win]
    by_cases h : m = n
    · simp [h, Window.waitingResponse_of_owed_none]
    · simp [h]
  · cases party with
    | host => simp [State.place, State.placesFor]; omega
    | maint =>
      simp only [State.placesFor] at room ⊢
      split at room
      · simp [State.place, *]
      · simp at room

/-- With no response waiting or no place free, offering changes nothing. -/
theorem State.admitOwed_closed {party : Party} (h : s.waitingSlots party = [] ∨ s.placesFor party = 0) :
    s.admitOwed party = s := by
  refine s.admitOwed_stays party ?_
  rcases h with h | h
  · exact .inr ((s.waitingSlots_eq_nil party).mp h)
  · refine .inl (Bool.eq_false_iff.mpr fun room => ?_)
    have := (s.roomFor_iff party).mp room
    omega

/-- Responses that enter behind the first one. -/
theorem Entered.cons {u : State} {party : Party} {n : Slot} {slots : List Slot} (first : Entered party [n] s t)
    (later : Entered party slots t u) (fresh : n ∉ slots) (one : party = .maint → slots = []) :
    Entered party (n :: slots) s u := by
  obtain ⟨win, ports⟩ := first
  obtain ⟨win', ports'⟩ := later
  have same : ∀ m ∈ slots, t.win m = s.win m := fun m hm => by
    rw [win, if_neg]
    rintro h
    exact fresh (List.mem_singleton.mp h ▸ hm)
  refine ⟨fun m => ?_, ?_⟩
  · rw [win', win]
    by_cases h : m = n
    · subst h; simp [fresh]
    · simp [h]
  · have answers : ∀ p, (slots.filterMap fun m => (t.win m).waitingResponse p) =
        slots.filterMap fun m => (s.win m).waitingResponse p := fun p =>
      List.filterMap_congr fun m hm => by rw [same m hm]
    cases party with
    | host =>
      refine ⟨ports'.1.trans ports.1, ?_⟩
      have split : ((n :: slots).filterMap fun m => (s.win m).waitingResponse .host) =
          ([n].filterMap fun m => (s.win m).waitingResponse .host) ++
            slots.filterMap fun m => (s.win m).waitingResponse .host := List.filterMap_append (l := [n])
      rw [ports'.2, ports.2, answers, split, ← List.append_assoc]
    | maint =>
      obtain rfl := one rfl
      refine ⟨ports'.1.trans ports.1, ?_⟩
      rw [ports'.2, ports.2]
      simp

/-- Offering k times lets the first waiting responses enter, as many as k and the free places allow. -/
theorem State.admitOwed_iterate (party : Party) (k : Nat) (s : State) :
    Entered party ((s.waitingSlots party).take (min k (s.placesFor party))) s
        ((fun u : State => u.admitOwed party)^[k] s) ∧
      ((fun u : State => u.admitOwed party)^[k] s).waitingSlots party =
        (s.waitingSlots party).drop (min k (s.placesFor party)) ∧
      ((fun u : State => u.admitOwed party)^[k] s).placesFor party =
        s.placesFor party - (s.waitingSlots party |>.take k).length := by
  induction k generalizing s with
  | zero => simp [Entered.nothing]
  | succ k ih =>
    rw [Function.iterate_succ_apply]
    by_cases closed : s.waitingSlots party = [] ∨ s.placesFor party = 0
    · have stays := State.admitOwed_closed closed
      simp only [stays]
      have := ih s
      rcases closed with empty | full
      · simpa [empty] using this
      · simpa [full] using this
    · obtain ⟨some, room⟩ := not_or.mp closed
      obtain ⟨n, rest, head⟩ := List.exists_cons_of_ne_nil some
      obtain ⟨first, left, places⟩ := State.admitOwed_head head (Nat.pos_of_ne_zero room)
      obtain ⟨later, left', places'⟩ := ih (s.admitOwed party)
      rw [left, places] at later left' places'
      have nodup := s.waitingSlots_nodup party
      rw [head, List.nodup_cons] at nodup
      obtain ⟨p, hp⟩ : ∃ p, s.placesFor party = p + 1 := Nat.exists_eq_succ_of_ne_zero room
      have least : min (k + 1) (s.placesFor party) = min k (s.placesFor party - 1) + 1 := by omega
      rw [head, least, List.take_succ_cons, List.drop_succ_cons, List.take_succ_cons]
      refine ⟨first.cons later (fun mem => nodup.1 (List.mem_of_mem_take mem)) fun tool => ?_, left', ?_⟩
      · subst tool
        have one : s.placesFor .maint = 1 := by
          simp only [State.placesFor] at room ⊢
          split at room
          · simp [*]
          · exact absurd rfl room
        simp [one]
      · rw [places', List.length_cons]
        omega

theorem State.admitAllOwed_eq_iterate (party : Party) :
    s.admitAllOwed party = (fun u : State => u.admitOwed party)^[64] s := by
  have slots : allSlots.length = 64 := List.length_finRange
  unfold State.admitAllOwed
  rw [← slots]
  exact List.foldl_const (fun u : State => u.admitOwed party) s allSlots

/-- All waiting responses offered: the lowest enter, as many as there are places. -/
theorem State.admitAllOwed_entered (party : Party) :
    Entered party ((s.waitingSlots party).take (s.placesFor party)) s (s.admitAllOwed party) := by
  obtain ⟨entered, -, -⟩ := s.admitOwed_iterate party 64
  rw [s.admitAllOwed_eq_iterate party]
  have places : s.placesFor party ≤ 64 := by
    cases party with
    | host => simp only [State.placesFor]; omega
    | maint => simp only [State.placesFor]; split <;> omega
  rwa [min_eq_right places] at entered

end
end Sys2Proof.Machine
end

section
/-!
The queues (R32, R45, R121, R126, R139, R144, R147, R161, R173), invariant by invariant: the Lookup Engine's lists, the
Table Arbiter, the ports' queues, the owed responses beside the room for them, and the walk yield beside the claims.
-/
namespace Sys2Proof.Machine

/-- The Lookup Engine holds no more than its places, and the NORMAL entries fit beside the reserve (R32, R45, R173). -/
def State.EngineSound (s : State) : Prop :=
  s.lookup.queue.length ≤ 16 ∧ s.lookup.reserve ≤ 8 ∧ s.normalQueued + s.lookup.reserve ≤ 16 ∧
    s.lookup.verdicts.length ≤ 8

/-- The Host Port's queues hold no more than their places (R139, R144). -/
def State.PortSound (s : State) : Prop :=
  s.host.responses.length ≤ 16 ∧ s.host.commands.length + s.host.assembler.reserved ≤ 8

/-- No operation is under way, and the host wait count is in range (R121). -/
def State.ArbiterSound (s : State) : Prop := s.arbiter.hostWait ≤ 8 ∧ s.arbiter.holder = none

/-- An owed response waits only while its party has no room (R147, R161). -/
def State.RoomsSound (s : State) : Prop := ∀ party, s.roomFor party = true → s.lowestWaiting party = none

/-- The walk yields only while another claim is present (R126). -/
def State.YieldSound (s : State) : Prop := s.sweep.yields = true → s.othersClaim = true

theorem State.queuesSound_iff {s : State} :
    s.QueuesSound ↔ s.EngineSound ∧ s.PortSound ∧ s.ArbiterSound ∧ s.RoomsSound ∧ s.YieldSound := by
  unfold State.QueuesSound State.EngineSound State.PortSound State.ArbiterSound State.RoomsSound State.YieldSound
  tauto

section
variable {s t : State}

/-! ### The Lookup Engine's lists -/

theorem State.EngineSound.of_lookup (hs : s.EngineSound) (h : t.lookup = s.lookup) : t.EngineSound := by
  unfold State.EngineSound State.normalQueued at *
  rwa [h]

theorem State.normalQueued_le (s : State) : s.normalQueued ≤ s.lookup.queue.length := List.countP_le_length

/-- A request is admitted where the free places exceed the reserve (NORMAL) or 0 (URGENT) (R32). -/
theorem State.admits_iff (s : State) (urgency : Urgency) :
    s.admits urgency = true ↔
      (match urgency with | .normal => s.lookup.reserve | .urgent => 0) < 16 - s.lookup.queue.length := by
  cases urgency <;> exact decide_eq_true_iff

/-- A request is admitted only where the places exceed what its class must leave free (R32). -/
theorem State.EngineSound.admitRequest (hs : s.EngineSound) (place : s.lookup.verdicts.length < 8) (q : LookupRequest)
    (kind : AccessKind) : (s.admitRequest q kind).EngineSound := by
  obtain ⟨queue, reserve, normal, verdicts⟩ := hs
  have count := s.normalQueued_le
  obtain ⟨admits, h⟩ | ⟨-, h⟩ := s.admitRequest_cases q kind <;> rw [h]
  · rw [State.admits_iff] at admits
    have normal' : ∀ e, State.normalQueued { s with lookup := { s.lookup with
          queue := s.lookup.queue ++ [e], inFlight := s.lookup.inFlight ++ [(q.requester, q.tag)] } } =
        s.normalQueued + if e.arrivalClass = .normal then 1 else 0 := fun e => by
      simp [State.normalQueued, List.countP_append, List.countP_singleton]
    refine ⟨?_, reserve, ?_, verdicts⟩
    · rw [List.length_append, List.length_singleton]
      omega
    · rw [normal']
      cases h : (s.profile q.requester).urgency <;> simp only [h, if_true, reduceCtorEq, if_false] at admits ⊢
      · omega
      · exact normal
  · refine ⟨queue, reserve, normal, ?_⟩
    simp only [State.settleYield_lookup, List.length_append, List.length_singleton]
    omega

theorem State.requestReady_place (h : s.requestReady = true) : s.lookup.verdicts.length < 8 := by
  simp only [State.requestReady, Bool.and_eq_true] at h
  exact of_decide_eq_true h.2

theorem State.lookupClaims_place (h : s.lookupClaims = true) : s.lookup.verdicts.length < 8 := by
  simp only [State.lookupClaims, Bool.and_eq_true] at h
  exact of_decide_eq_true h.2

/-- A decided entry leaves the queue, and its verdict takes the place that the claim needs (R35, R36). -/
theorem State.EngineSound.decideLookup (hs : s.EngineSound) (granted : s.grantee = some .lookup) (e : QueueEntry) :
    (s.decideLookup e).EngineSound := by
  obtain ⟨queue, reserve, normal, verdicts⟩ := hs
  obtain ⟨answer, ⟨lookup, -⟩, -⟩ := s.decideLookup_answers e
  have place := State.lookupClaims_place (s.grantee_lookup granted).2
  have fewer : (s.decideLookup e).normalQueued ≤ s.normalQueued := by
    simp only [State.normalQueued, lookup]
    exact (List.tail_sublist _).countP_le
  unfold State.EngineSound
  rw [lookup]
  refine ⟨?_, reserve, (Nat.add_le_add_right fewer _).trans normal, ?_⟩
  · rw [List.length_tail]; omega
  · rw [List.length_append, List.length_singleton]; omega

theorem State.EngineSound.departVerdict (hs : s.EngineSound) : s.departVerdict.EngineSound := by
  unfold State.departVerdict
  split
  · exact hs
  · next v rest head =>
    obtain ⟨queue, reserve, normal, verdicts⟩ := hs
    rw [head, List.length_cons] at verdicts
    exact ⟨queue, reserve, normal, by dsimp only; omega⟩

/-- [SRV] writes a reserve that the NORMAL entries queued leave free (R173). -/
theorem TakingEffect.keeps_engineSound {effect : Command → State → State × Response} (row : TakingEffect effect)
    (c : Command) (hs : s.EngineSound) : (effect c s).1.EngineSound := by
  cases row with
  | srv =>
    obtain ⟨queue, reserve, normal, verdicts⟩ := id hs
    unfold srvEffect
    split
    · exact hs
    · split
      · exact hs
      · next small room =>
        simp only [Config.lookupPlaces] at room
        refine ⟨queue, by dsimp only; omega, ?_, verdicts⟩
        change s.normalQueued + c.reserve ≤ 16
        omega
  | tcf => unfold tcfEffect; repeat' split
           all_goals exact hs
  | tst => unfold tstEffect; split <;> exact hs
  | _ => exact hs

theorem State.Becomes.keeps_engineSound (h : s.Becomes t) (hs : s.EngineSound) : t.EngineSound := by
  cases h with
  | poweredOn => exact ⟨Nat.zero_le _, Nat.le_of_ble_eq_true rfl, Nat.le_of_ble_eq_true rfl, Nat.zero_le _⟩
  | fabricReset =>
    obtain ⟨_, _, _, _, _, h⟩ := s.resetFabric_only
    rw [h]
    refine ⟨Nat.zero_le _, hs.2.1, ?_, Nat.zero_le _⟩
    have reserve := hs.2.1
    simp only [State.normalQueued, LookupEngine.emptied, List.countP_nil]
    omega
  | requestArrived q ready =>
    obtain ⟨kind, h⟩ | ⟨kind, -, h⟩ := s.arrive_cases q <;> rw [h]
    · exact hs.of_lookup rfl
    · exact hs.admitRequest (State.requestReady_place ready) q kind
  | lookupDecided e rest _ granted => exact hs.decideLookup granted e
  | verdictDeparted => exact hs.departVerdict
  | ticketCompleted k r =>
    obtain ⟨_, _, only⟩ := s.complete_only k r
    exact hs.of_lookup only.lookup
  | ticked => obtain ⟨_, _, h⟩ := s.tick_only; rw [h]; exact hs
  | periodElapsed => obtain ⟨_, _, h⟩ := s.elapsePeriod_only; rw [h]; exact hs
  | slotVisited n endMark =>
    obtain ⟨_, _, only⟩ := s.visit_only n endMark
    exact hs.of_lookup only.lookup
  | commandWritten privilege word => exact hs.of_lookup (s.writeCommand_only privilege word).lookup
  | tableCommand party operation c row =>
    obtain ⟨_, _, _, h⟩ := (row.operated (s.grantTo (engineOf party)) c).only
    rw [h]
    exact hs.of_lookup (State.finishCommand_only _ party _).lookup
  | answeredAtTaking effect c row => exact (row.keeps_engineSound c hs).of_lookup (State.answerTaken_only _ _).lookup
  | refusedAtTaking r => exact hs.of_lookup (s.answerTaken_only r).lookup
  | toolAnswered => obtain ⟨_, h⟩ := s.answerUnknownTool_only; rw [h]; exact hs
  | responseRead => exact hs.of_lookup s.advanceResponse_only.lookup
  | hostOwedEntered => exact hs.of_lookup ((s.admitOwed_only .host).trans (State.takeInHand_only _)).lookup
  | toolOwedEntered => exact hs.of_lookup (s.admitOwed_only .maint).lookup
  | frameArrived frame => obtain ⟨_, h⟩ := s.frameArrives_only frame; rw [h]; exact hs
  | responseCaptured => exact hs.of_lookup s.captureResponse_only.lookup
  | portReset => obtain ⟨_, only⟩ := s.resetPort_only; exact hs.of_lookup only.lookup
  | linkReset => obtain ⟨_, only⟩ := s.resetLink_only; exact hs.of_lookup only.lookup
  | _ => exact hs

/-! ### The Table Arbiter -/

theorem State.ArbiterSound.of_arbiter (hs : s.ArbiterSound) (h : t.arbiter = s.arbiter) : t.ArbiterSound := by
  unfold State.ArbiterSound at *
  rwa [h]

/-- A grant keeps the host wait count in range (R125). -/
theorem State.hostWaitAtGrant_le (hs : s.ArbiterSound) (c : Claimant) : s.hostWaitAtGrant c ≤ 8 := by
  have wait := hs.1
  cases c <;> simp only [State.hostWaitAtGrant, Config.ageLimit]
  · exact wait
  · exact wait
  · split <;> omega
  · omega

theorem State.Becomes.keeps_arbiterSound (h : s.Becomes t) (hs : s.ArbiterSound) : t.ArbiterSound := by
  cases h with
  | poweredOn => exact ⟨Nat.zero_le _, rfl⟩
  | fabricReset =>
    obtain ⟨_, _, _, _, _, h⟩ := s.resetFabric_only
    rw [h]
    exact hs.of_arbiter rfl
  | requestArrived q => obtain ⟨_, _, _, h⟩ := s.arrive_only q; rw [h]; exact hs
  | lookupDecided e =>
    obtain ⟨_, ⟨-, arbiter, -⟩, -⟩ := s.decideLookup_answers e
    unfold State.ArbiterSound
    rw [arbiter]
    exact ⟨s.hostWaitAtGrant_le hs .lookup, rfl⟩
  | verdictDeparted => obtain ⟨_, h⟩ := s.departVerdict_only; rw [h]; exact hs
  | ticketCompleted k r =>
    obtain ⟨_, _, only⟩ := s.complete_only k r
    exact hs.of_arbiter only.arbiter
  | ticked => obtain ⟨_, _, h⟩ := s.tick_only; rw [h]; exact hs
  | periodElapsed => obtain ⟨_, _, h⟩ := s.elapsePeriod_only; rw [h]; exact hs
  | slotVisited n endMark =>
    obtain ⟨_, _, only⟩ := s.visit_only n endMark
    unfold State.ArbiterSound
    rw [only.arbiter]
    exact ⟨hs.1, rfl⟩
  | commandWritten privilege word => exact hs.of_arbiter (s.writeCommand_only privilege word).arbiter
  | tableCommand party operation c row =>
    obtain ⟨_, _, _, h⟩ := (row.operated (s.grantTo (engineOf party)) c).only
    unfold State.ArbiterSound
    rw [(State.finishCommand_only _ party _).arbiter, h]
    exact ⟨s.hostWaitAtGrant_le hs _, rfl⟩
  | answeredAtTaking effect c row =>
    obtain ⟨_, _, _, _, h⟩ := row.effect_only s c
    refine hs.of_arbiter ((State.answerTaken_only _ _).arbiter.trans ?_)
    rw [h]
  | refusedAtTaking r => exact hs.of_arbiter (s.answerTaken_only r).arbiter
  | toolAnswered => obtain ⟨_, h⟩ := s.answerUnknownTool_only; rw [h]; exact hs
  | responseRead => exact hs.of_arbiter s.advanceResponse_only.arbiter
  | hostOwedEntered => exact hs.of_arbiter ((s.admitOwed_only .host).trans (State.takeInHand_only _)).arbiter
  | toolOwedEntered => exact hs.of_arbiter (s.admitOwed_only .maint).arbiter
  | frameArrived frame => obtain ⟨_, h⟩ := s.frameArrives_only frame; rw [h]; exact hs
  | responseCaptured => exact hs.of_arbiter s.captureResponse_only.arbiter
  | portReset =>
    obtain ⟨_, only⟩ := s.resetPort_only
    unfold State.ArbiterSound
    rw [only.arbiter]
    exact ⟨Nat.zero_le _, hs.2⟩
  | linkReset => obtain ⟨_, only⟩ := s.resetLink_only; exact hs.of_arbiter only.arbiter
  | _ => exact hs

end
end Sys2Proof.Machine
end

section
/-!
Responses and the room for them (R63, R139, R144, R147, R161), and the walk yield beside the other claims (R126).
-/
namespace Sys2Proof.Machine

/-- The ports' queues hold no more than their places, and no owed response waits beside room. -/
def State.PlacesSound (s : State) : Prop := s.PortSound ∧ s.RoomsSound

section
variable {s t : State}

/-! ### Places -/

theorem State.RoomsSound.nothingWaits (hs : s.RoomsSound) {party : Party} (room : 0 < s.placesFor party) :
    s.waitingSlots party = [] :=
  (s.waitingSlots_eq_nil party).mpr
    ((s.lowestWaiting_none party).mp (hs party ((s.roomFor_iff party).mpr room)))

theorem State.roomsSound_iff :
    s.RoomsSound ↔ ∀ party, 0 < s.placesFor party → s.waitingSlots party = [] := by
  simp only [State.RoomsSound, State.roomFor_iff, State.lowestWaiting_none, State.waitingSlots_eq_nil]

/-- The state of the ports and the waiting responses decides; less room and fewer waiting responses are no harm. -/
theorem State.RoomsSound.of_fewer (hs : s.RoomsSound) (places : ∀ party, t.placesFor party ≤ s.placesFor party)
    (fewer : ∀ n party, (s.win n).waitingResponse party = none → (t.win n).waitingResponse party = none) :
    t.RoomsSound := by
  rw [State.roomsSound_iff]
  intro party room
  rw [State.waitingSlots_eq_nil]
  have none := (s.waitingSlots_eq_nil party).mp (hs.nothingWaits (room.trans_le (places party)))
  exact fun n => fewer n party (none n)

theorem State.PlacesSound.of_eq (hs : s.PlacesSound) (host : t.host = s.host) (maint : t.maint = s.maint)
    (fewer : ∀ n party, (s.win n).waitingResponse party = none → (t.win n).waitingResponse party = none) :
    t.PlacesSound := by
  refine ⟨?_, hs.2.of_fewer (fun party => ?_) fewer⟩
  · unfold State.PortSound
    rw [host]
    exact hs.1
  · unfold State.placesFor
    rw [host, maint]

/-- A place was free, so a response may be placed (R63, R128, R140). -/
theorem State.PlacesSound.place (hs : s.PlacesSound) {party : Party} (room : 0 < s.placesFor party) (r : Response) :
    (s.place party r).PlacesSound := by
  obtain ⟨⟨responses, commands⟩, rooms⟩ := hs
  cases party with
  | host =>
    simp only [State.placesFor] at room
    refine ⟨⟨by simp [State.place]; omega, commands⟩, rooms.of_fewer (fun party => ?_) fun n party h => h⟩
    cases party with
    | host => simp [State.place, State.placesFor]; omega
    | maint => exact le_rfl
  | maint =>
    refine ⟨⟨responses, commands⟩, rooms.of_fewer (fun party => ?_) fun n party h => h⟩
    cases party with
    | host => exact le_rfl
    | maint => simp [State.place, State.placesFor]

theorem State.PlacesSound.takeInHand (hs : s.PlacesSound) : s.takeInHand.PlacesSound := by
  obtain ⟨⟨responses, commands⟩, rooms⟩ := hs
  obtain h | ⟨c, rest, queue, -, -, h⟩ := s.takeInHand_cases <;> rw [h]
  · exact ⟨⟨responses, commands⟩, rooms⟩
  · rw [queue, List.length_cons] at commands
    refine ⟨⟨responses, by dsimp only; omega⟩, rooms.of_fewer (fun party => ?_) fun n party h => h⟩
    cases party <;> exact le_rfl

theorem State.mayTake_place (mayTake : s.mayTake = true) : 0 < s.placesFor .host := by
  simp only [State.mayTake, Bool.and_eq_true] at mayTake
  exact (s.roomFor_iff .host).mp mayTake.1.2

theorem State.PlacesSound.dropHead (hs : s.PlacesSound) : s.dropHead.PlacesSound := by
  obtain ⟨⟨responses, commands⟩, rooms⟩ := hs
  refine ⟨⟨responses, ?_⟩, rooms.of_fewer (fun party => ?_) fun n party h => h⟩
  · have fewer := List.length_tail (l := s.host.commands)
    simp only [State.dropHead]
    omega
  · cases party <;> exact le_rfl

theorem State.PlacesSound.answerTaken (hs : s.PlacesSound) (room : 0 < s.placesFor .host) (r : Response) :
    (s.answerTaken r).PlacesSound :=
  (hs.dropHead.place (party := .host) room r).takeInHand

/-- An operation under a grant has room for its response (R127, R128). -/
theorem State.granted_place {party : Party} {c : Command} (hand : s.inHand party = some c)
    (granted : s.grantee = some (engineOf party)) : 0 < s.placesFor party := by
  rw [← State.roomFor_iff]
  cases party with
  | host =>
    have claims := (s.grantee_host granted).2
    simp only [State.hostClaims, Bool.and_eq_true] at claims
    exact claims.1.2
  | maint =>
    have claims := (s.grantee_maint.mp granted).2
    have command : s.maint.command = some c := hand
    simp only [State.maintClaims, command, Bool.and_eq_true] at claims
    exact claims.2

theorem State.PlacesSound.finishCommand (hs : s.PlacesSound) {party : Party} (room : 0 < s.placesFor party)
    (response : Option Response) : (s.finishCommand party response).PlacesSound := by
  have rest : ∀ u : State, u.PlacesSound →
      (match party with
        | .host => (u.release.setHand none).takeInHand
        | .maint => { u.release with maint := { u.maint with command := none } }).PlacesSound := by
    intro u hu
    cases party with
    | host =>
      exact State.PlacesSound.takeInHand (s := u.release.setHand none) (hu.of_eq rfl rfl fun _ _ h => h)
    | maint =>
      refine ⟨hu.1, hu.2.of_fewer (fun p => ?_) fun _ _ h => h⟩
      cases p <;> exact le_rfl
  cases response with
  | none => exact rest s hs
  | some r => exact rest _ (hs.place room r)

/-! ### Owed responses that enter -/

/-- Responses that enter for one party leave the places of the other. -/
theorem Entered.otherPlaces {party q : Party} {slots : List Slot} (h : Entered party slots s t) (other : q ≠ party) :
    t.placesFor q = s.placesFor q := by
  obtain ⟨-, ports⟩ := h
  cases party with
  | host =>
    cases q with
    | host => exact absurd rfl other
    | maint => simp [State.placesFor, ports.1]
  | maint =>
    cases q with
    | host => simp [State.placesFor, ports.1]
    | maint => exact absurd rfl other

/-- After an offer no response of the party waits beside room, when at most one waited or one place was free. -/
theorem State.RoomsSound.of_offer {party : Party}
    (single : 1 < s.placesFor party → (s.waitingSlots party).length ≤ 1)
    (others : ∀ q, q ≠ party → 0 < s.placesFor q → s.waitingSlots q = []) : (s.admitOwed party).RoomsSound := by
  rw [State.roomsSound_iff]
  by_cases closed : s.waitingSlots party = [] ∨ s.placesFor party = 0
  · rw [State.admitOwed_closed closed]
    intro q room
    by_cases h : q = party
    · subst h
      exact closed.resolve_right (Nat.pos_iff_ne_zero.mp room)
    · exact others q h room
  · obtain ⟨some, places⟩ := not_or.mp closed
    obtain ⟨n, rest, head⟩ := List.exists_cons_of_ne_nil some
    obtain ⟨⟨win, ports⟩, left, fewer⟩ := State.admitOwed_head head (Nat.pos_of_ne_zero places)
    intro q room
    by_cases h : q = party
    · subst h
      rw [fewer] at room
      have := single (by omega)
      rw [head, List.length_cons] at this
      rw [left]
      exact List.eq_nil_of_length_eq_zero (by omega)
    · have same : (s.admitOwed party).placesFor q = s.placesFor q := Entered.otherPlaces ⟨win, ports⟩ h
      rw [same] at room
      have none := (s.waitingSlots_eq_nil q).mp (others q h room)
      rw [State.waitingSlots_eq_nil]
      intro m
      rcases s.admitOwed_win party m with h | h <;> rw [h]
      · exact none m
      · exact Window.waitingResponse_of_owed_none rfl q

theorem State.PortSound.admitOwed (hs : s.PortSound) (party : Party) : (s.admitOwed party).PortSound := by
  obtain h | ⟨n, r, -, room, h⟩ := s.admitOwed_cases party <;> rw [h]
  · exact hs
  · rw [State.roomFor_iff] at room
    cases party with
    | host =>
      simp only [State.placesFor] at room
      exact ⟨by simp [State.place]; omega, hs.2⟩
    | maint => exact hs

/-- In a sound state an offer finds nothing to do. -/
theorem State.RoomsSound.admitOwed (hs : s.RoomsSound) (party : Party) : s.admitOwed party = s := by
  refine State.admitOwed_closed ?_
  rcases Nat.eq_zero_or_pos (s.placesFor party) with full | room
  · exact .inr full
  · exact .inl (hs.nothingWaits room)

/-- A drain that ends offers the one response that its slot owes (R63). -/
theorem State.PlacesSound.endDrain (hs : s.PlacesSound) (n : Slot) (outcome : DrainOutcome) :
    (s.endDrain n outcome).PlacesSound := by
  have others : ∀ m, m ≠ n → (s.setWin n ((s.win n).endDrain outcome)).win m = s.win m := fun m h => by simp [h]
  obtain ⟨owes, h⟩ | ⟨o, owes, h⟩ := s.endDrain_cases n outcome <;> rw [h]
  · refine hs.of_eq rfl rfl fun m party none => ?_
    by_cases same : m = n
    · subst same
      exact Window.waitingResponse_of_owed_none (by simp [Window.endDrain, Window.cleared, owes]) party
    · rwa [others m same]
  · refine ⟨State.PortSound.admitOwed (s := s.setWin n _) hs.1 o.party, .of_offer (fun room => ?_) fun q other room => ?_⟩
    · have none := (s.waitingSlots_eq_nil o.party).mp (hs.2.nothingWaits (Nat.lt_of_succ_lt room))
      have only : (s.setWin n ((s.win n).endDrain outcome)).waitingSlots o.party ⊆ [n] := by
        intro m hm
        rw [State.mem_waitingSlots] at hm
        rw [List.mem_singleton]
        by_contra h
        rw [others m h] at hm
        exact hm (none m)
      exact (List.subperm_of_subset (State.waitingSlots_nodup _ _) only).length_le
    · have none := (s.waitingSlots_eq_nil q).mp (hs.2.nothingWaits room)
      rw [State.waitingSlots_eq_nil]
      intro m
      by_cases same : m = n
      · subst same
        rw [Option.eq_none_iff_forall_ne_some]
        intro r hr
        obtain ⟨-, _, _, owed, -⟩ := Window.waitingResponse_eq_some_iff.mp hr
        simp only [State.setWin_win, if_true, Window.endDrain, Window.cleared, owes, Option.map_some, Owed.complete,
          Option.some.injEq, Owed.mk.injEq] at owed
        exact other owed.1.symm
      · rw [others m same]
        exact none m

/-- All waiting responses offered to a party: those that still wait find no room (R148, R161). -/
theorem State.admitAllOwed_places (s : State) (party : Party) (room : 0 < (s.admitAllOwed party).placesFor party) :
    (s.admitAllOwed party).waitingSlots party = [] := by
  obtain ⟨-, left, places⟩ := s.admitOwed_iterate party 64
  rw [← s.admitAllOwed_eq_iterate party] at left places
  have count := s.waitingSlots_length party
  rw [left]
  rw [places, List.length_take] at room
  exact List.drop_eq_nil_of_le (by omega)

theorem State.PortSound.admitAllOwed (hs : s.PortSound) (party : Party) : (s.admitAllOwed party).PortSound :=
  s.admitAllOwed_induct (P := State.PortSound) party (fun _ h => h.admitOwed party) hs

/-- Offering the responses of one party leaves what waits for the other, and its places. -/
theorem Entered.other {party q : Party} {slots : List Slot} (h : Entered party slots s t) (other : q ≠ party)
    (mine : ∀ n ∈ slots, (s.win n).waitingResponse party ≠ none) :
    t.waitingSlots q = s.waitingSlots q ∧ t.placesFor q = s.placesFor q := by
  obtain ⟨win, ports⟩ := h
  constructor
  · unfold State.waitingSlots
    refine List.filter_congr fun n _ => ?_
    rw [win]
    split
    · next mem =>
      obtain ⟨r, hr⟩ := Option.ne_none_iff_exists'.mp (mine n mem)
      rw [Window.waitingResponse_unique hr other, Window.waitingResponse_of_owed_none rfl q]
    · rfl
  · exact Entered.otherPlaces ⟨win, ports⟩ other

theorem State.admitAllOwed_other (s : State) {party q : Party} (other : q ≠ party) :
    (s.admitAllOwed party).waitingSlots q = s.waitingSlots q ∧ (s.admitAllOwed party).placesFor q = s.placesFor q :=
  (s.admitAllOwed_entered party).other other fun n mem =>
    (s.mem_waitingSlots party n).mp (List.mem_of_mem_take mem)

/-- Both parties' responses offered, whatever waited. -/
theorem State.admitBoth_places (hs : s.PortSound) : ((s.admitAllOwed .host).admitAllOwed .maint).PlacesSound := by
  refine ⟨(hs.admitAllOwed .host).admitAllOwed .maint, State.roomsSound_iff.mpr fun party room => ?_⟩
  cases party with
  | maint => exact State.admitAllOwed_places _ .maint room
  | host =>
    obtain ⟨waits, places⟩ := (s.admitAllOwed .host).admitAllOwed_other (party := .maint) (q := .host) (by decide)
    rw [places] at room
    rw [waits]
    exact State.admitAllOwed_places s .host room

/-! ### The cases -/

/-- No operation of a table command makes an owed response wait. -/
theorem OwnOperated.fewer_waiting {party : Party} (h : OwnOperated s party t) (n : Slot) (p : Party)
    (quiet : (s.win n).waitingResponse p = none) : (t.win n).waitingResponse p = none := by
  have drains : ∀ (w : Window) cause owed use, (w.enterDrain cause owed use).waitingResponse p = none := by
    intro w cause owed use
    unfold Window.enterDrain
    split
    · exact Window.waitingResponse_of_owed_none rfl p
    · exact Window.waitingResponse_of_notFree rfl p
  have set : ∀ m w, w.waitingResponse p = none → ((s.setWin m w).win n).waitingResponse p = none := by
    intro m w none
    rw [State.setWin_win]
    split
    · exact none
    · exact quiet
  cases h with
  | staged m => exact set m _ (Window.waitingResponse_of_notFree rfl p)
  | abandoned m => exact set m _ (Window.waitingResponse_of_owed_none rfl p)
  | committed =>
    rw [State.mapWindows_win]
    unfold State.committed
    split
    · exact Window.waitingResponse_of_notFree rfl p
    · split
      · exact drains _ _ _ _
      · exact quiet
  | retired m => exact set m _ (drains _ _ _ _)
  | renewed m _ _ live =>
    refine set m _ (Window.waitingResponse_of_notFree ?_ p)
    simp [Window.isFree, Window.isLive_iff.mp live]
  | modified m selected word _ present =>
    refine set m _ (Window.waitingResponse_of_notFree ?_ p)
    unfold Window.isFree
    rw [Window.withSelectedWord_state]
    rw [Window.isStaged_iff, Window.isLive_iff] at present
    obtain ⟨target, h⟩ | h := present <;> rw [h]
  | _ => exact quiet

theorem Operated.fewer_waiting {party : Party} (h : Operated s party t) (n : Slot) (p : Party)
    (quiet : (s.win n).waitingResponse p = none) : (t.win n).waitingResponse p = none := by
  cases h with
  | own t h => exact h.fewer_waiting n p quiet
  | moved giver receiver first last ownership =>
    rw [State.mapWindows_win]
    refine (Window.waitingResponse_congr ?_ ?_ p).trans quiet <;> split <;> rfl
  | _ => exact quiet

theorem Operated.keeps_placesSound {party : Party} (h : Operated s party t) (hs : s.PlacesSound) : t.PlacesSound := by
  obtain ⟨table, walk, ownership, only⟩ := h.only
  refine ⟨?_, hs.2.of_fewer (fun p => ?_) h.fewer_waiting⟩
  · rw [only]; exact hs.1
  · rw [only]
    cases p <;> exact le_rfl

/-- Of a visit only the ending of a forced drain offers a response; an expired lease owes none. -/
theorem State.PlacesSound.visitSlot (hs : s.PlacesSound) (n : Slot) : (s.visitSlot n).PlacesSound := by
  have set : ∀ w : Window, (∀ p, w.waitingResponse p = none) → (s.setWin n w).PlacesSound := by
    intro w quiet
    refine hs.of_eq rfl rfl fun m p before => ?_
    rw [State.setWin_win]
    split
    · exact quiet p
    · exact before
  obtain h | ⟨live, h⟩ | ⟨-, h⟩ | ⟨cause, age, -, h⟩ := s.visitSlot_cases n <;> rw [h]
  · exact hs
  · have notFree : ∀ w : Window, w.state = (s.win n).state → ∀ p, w.waitingResponse p = none := fun w state p =>
      Window.waitingResponse_of_notFree (by unfold Window.isFree; rw [state, live]) p
    obtain h | ⟨-, h⟩ | h | ⟨-, h⟩ := s.visitLive_cases n <;> rw [h]
    · exact hs
    · exact set _ (notFree _ rfl)
    · refine set _ fun p => ?_
      unfold Window.enterDrain
      split
      · exact Window.waitingResponse_of_owed_none rfl p
      · exact Window.waitingResponse_of_notFree rfl p
    · exact set _ (notFree _ rfl)
  · have orphaned : (s.orphanTickets n).PlacesSound := hs.of_eq rfl rfl fun _ _ h => h
    obtain ⟨port, rooms⟩ := orphaned.endDrain n .forced
    refine ⟨port, rooms.of_fewer (fun p => ?_) fun _ _ h => h⟩
    cases p <;> exact le_rfl
  · exact set _ fun p => Window.waitingResponse_of_notFree rfl p

theorem State.PlacesSound.enqueueCommand (hs : s.PlacesSound) (place : s.host.commands.length < 8) (c : Command)
    (privilege : Privilege) : (s.enqueueCommand c privilege).PlacesSound := by
  obtain ⟨⟨responses, -⟩, rooms⟩ := hs
  refine ⟨⟨responses, ?_⟩, rooms.of_fewer (fun p => ?_) fun _ _ h => h⟩
  · simp [Assembler.reserved]; omega
  · cases p <;> exact le_rfl

theorem State.PlacesSound.setAssembler (hs : s.PlacesSound) {a : Assembler}
    (places : s.host.commands.length + a.reserved ≤ 8) : (s.setAssembler a).PlacesSound := by
  obtain ⟨⟨responses, -⟩, rooms⟩ := hs
  refine ⟨⟨responses, places⟩, rooms.of_fewer (fun p => ?_) fun _ _ h => h⟩
  cases p <;> exact le_rfl

theorem State.commandPlacesFree_eq (s : State) :
    s.commandPlacesFree = 8 - (s.host.commands.length + s.host.assembler.reserved) := by
  unfold State.commandPlacesFree Assembler.reserved
  cases s.host.assembler <;> rfl

/-- A command joins the queue at a free place or at the place it has reserved (R135, R136). -/
theorem State.PlacesSound.writeCommand (hs : s.PlacesSound) (privilege : Privilege) (word : Word) :
    (s.writeCommand privilege word).PlacesSound := by
  have commands := hs.1.2
  unfold State.writeCommand
  split
  · next idle =>
    have free := s.commandPlacesFree_eq
    rw [idle] at commands free
    simp only [Assembler.reserved] at commands free
    unfold State.takeHeader
    dsimp only
    split
    · have assembled : ∀ a : Assembler, a.reserved = 0 → ((s.setAssembler a).raiseProtocol .commandOverflow).PlacesSound := by
        intro a none
        obtain ⟨port, rooms⟩ := hs.setAssembler (a := a) (by omega)
        refine ⟨port, rooms.of_fewer (fun p => ?_) fun _ _ h => h⟩
        cases p <;> exact le_rfl
      refine assembled _ ?_
      split <;> rfl
    · next place =>
      split
      · exact (hs.enqueueCommand (by omega) _ _).takeInHand
      · exact hs.setAssembler (by simp only [Assembler.reserved]; omega)
  · next c remaining collecting =>
    rw [collecting] at commands
    simp only [Assembler.reserved] at commands
    unfold State.takeData
    dsimp only
    split
    · exact (hs.enqueueCommand (by omega) _ _).takeInHand
    · exact hs.setAssembler commands
  · next remaining discard =>
    rw [discard] at commands
    refine hs.setAssembler ?_
    split <;> exact commands

/-- The place of a response that has left goes to the lowest waiting one (R147). -/
theorem State.PlacesSound.advanceResponse (hs : s.PlacesSound) : s.advanceResponse.PlacesSound := by
  obtain ⟨⟨responses, commands⟩, rooms⟩ := id hs
  obtain ⟨-, h⟩ | ⟨r, rest, queue, ⟨-, h⟩ | ⟨-, h⟩⟩ := s.advanceResponse_cases <;> rw [h]
  · exact hs
  · refine ⟨⟨responses, commands⟩, rooms.of_fewer (fun p => ?_) fun _ _ h => h⟩
    cases p <;> exact le_rfl
  · have port : s.headLeft.PortSound := by
      refine ⟨?_, commands⟩
      simp only [State.headLeft, List.length_tail]
      omega
    refine State.PlacesSound.takeInHand ⟨port.admitOwed .host, .of_offer (fun room => ?_) fun q other room => ?_⟩
    · have before : 0 < s.placesFor .host := by
        simp only [State.placesFor, State.headLeft, queue, List.tail_cons, List.length_cons] at room ⊢
        omega
      have none : s.headLeft.waitingSlots .host = [] := rooms.nothingWaits before
      rw [none]
      exact Nat.zero_le _
    · cases q with
      | host => exact absurd rfl other
      | maint => exact rooms.nothingWaits (party := .maint) room

theorem State.PlacesSound.setMaint (hs : s.PlacesSound) {maint : MaintLink}
    (fuller : maint.response = none → s.maint.response = none) : State.PlacesSound { s with maint := maint } := by
  refine ⟨hs.1, hs.2.of_fewer (fun p => ?_) fun _ _ h => h⟩
  cases p with
  | host => exact le_rfl
  | maint =>
    simp only [State.placesFor]
    split
    · next empty => simp [fuller empty]
    · exact Nat.zero_le _

theorem State.PlacesSound.answerUnknownTool (hs : s.PlacesSound) : s.answerUnknownTool.PlacesSound := by
  unfold State.answerUnknownTool
  split
  · exact hs
  · split
    · exact hs.setMaint nofun
    · exact hs

theorem State.PlacesSound.frameArrives (hs : s.PlacesSound) (frame : Frame) : (s.frameArrives frame).PlacesSound := by
  unfold State.frameArrives
  split
  · exact (hs.setMaint (maint := { s.maint with command := some (Command.ofFrame frame), busy := false })
      id).answerUnknownTool
  · exact hs.setMaint (maint := { s.maint with busy := true }) id

theorem State.PlacesSound.captureResponse (hs : s.PlacesSound) : s.captureResponse.PlacesSound := by
  have port : s.registerCaptured.PortSound := hs.1
  refine ⟨port.admitOwed .maint, .of_offer (fun room => ?_) fun q other room => ?_⟩
  · simp [State.placesFor] at room
  · cases q with
    | host => exact hs.2.nothingWaits (party := .host) room
    | maint => exact absurd rfl other

theorem Window.dropOwed_waiting (w : Window) (party : Party) :
    (w.dropOwed party).waitingResponse party = none ∧
      ∀ p, w.waitingResponse p = none → (w.dropOwed party).waitingResponse p = none := by
  refine ⟨?_, fun p none => ?_⟩
  · rw [Option.eq_none_iff_forall_ne_some]
    intro r hr
    obtain ⟨-, _, _, owed, -⟩ := Window.waitingResponse_eq_some_iff.mp hr
    unfold Window.dropOwed at owed
    split at owed
    · next o h =>
      split at owed
      · cases owed
      · next other =>
        rw [h] at owed
        cases owed
        exact other rfl
    · next h => rw [h] at owed; cases owed
  · rcases w.dropOwed_cases party with h | h <;> rw [h]
    · exact none
    · exact Window.waitingResponse_of_owed_none rfl p

/-- A party whose owed responses are dropped has none waiting (R26). -/
theorem State.RoomsSound.dropOwed (hs : s.RoomsSound) (party : Party)
    (places : ∀ q, q ≠ party → t.placesFor q = s.placesFor q)
    (win : ∀ n, t.win n = (s.win n).dropOwed party) : t.RoomsSound := by
  rw [State.roomsSound_iff]
  intro q room
  rw [State.waitingSlots_eq_nil]
  intro n
  rw [win]
  by_cases h : q = party
  · exact h ▸ ((s.win n).dropOwed_waiting party).1
  · rw [places q h] at room
    exact ((s.win n).dropOwed_waiting party).2 q ((s.waitingSlots_eq_nil q).mp (hs.nothingWaits room) n)

/-- The state of a port reset before the walk yield is settled (R152). -/
def State.portEmptied (s : State) : State :=
  State.mapWindows { s with
    host := s.host.afterReset, hostHand := none, arbiter := { s.arbiter with hostWait := 0 } } fun _ w => w.dropOwed .host

/-- The state of a link reset before the walk yield is settled (R167). -/
def State.linkEmptied (s : State) : State :=
  State.mapWindows { s with
    maint := { s.maint with command := none, response := none, busy := false, capture := none } }
    fun _ w => w.dropOwed .maint

theorem State.resetPort_eq (s : State) : s.resetPort = s.portEmptied.settleYield := by
  simp only [State.resetPort, State.portEmptied]

theorem State.resetLink_eq (s : State) : s.resetLink = s.linkEmptied.settleYield := by
  simp only [State.resetLink, State.linkEmptied]

theorem State.portEmptied_win (s : State) (n : Slot) : s.portEmptied.win n = (s.win n).dropOwed .host := by
  rw [State.portEmptied, State.mapWindows_win]
  rfl

theorem State.linkEmptied_win (s : State) (n : Slot) : s.linkEmptied.win n = (s.win n).dropOwed .maint := by
  rw [State.linkEmptied, State.mapWindows_win]
  rfl

theorem State.PlacesSound.settleYield (hs : s.PlacesSound) : s.settleYield.PlacesSound := by
  obtain ⟨yields, settled⟩ := s.settleYield_only
  rw [settled]
  exact hs.of_eq rfl rfl fun _ _ h => h

theorem State.PlacesSound.portEmptied (hs : s.PlacesSound) : s.portEmptied.PlacesSound := by
  have host : s.portEmptied.host = s.host.afterReset := by rw [State.portEmptied, State.mapWindows_host]
  have maint : s.portEmptied.maint = s.maint := by rw [State.portEmptied, State.mapWindows_maint]
  refine ⟨?_, hs.2.dropOwed .host (fun q other => ?_) s.portEmptied_win⟩
  · unfold State.PortSound
    rw [host]
    exact ⟨Nat.zero_le _, Nat.zero_le _⟩
  · cases q with
    | host => exact absurd rfl other
    | maint => simp only [State.placesFor, maint]

theorem State.PlacesSound.linkEmptied (hs : s.PlacesSound) : s.linkEmptied.PlacesSound := by
  have host : s.linkEmptied.host = s.host := by rw [State.linkEmptied, State.mapWindows_host]
  refine ⟨?_, hs.2.dropOwed .maint (fun q other => ?_) s.linkEmptied_win⟩
  · unfold State.PortSound
    rw [host]
    exact hs.1
  · cases q with
    | host => simp only [State.placesFor, host]
    | maint => exact absurd rfl other

theorem State.PlacesSound.resetFabric (hs : s.PlacesSound) : s.resetFabric.PlacesSound := by
  have host : s.fabricFreed.host = s.host := by rw [State.fabricFreed, State.mapWindows_host]
  have port : s.fabricFreed.PortSound := by
    unfold State.PortSound
    rw [host]
    exact hs.1
  rw [s.resetFabric_eq]
  exact (State.admitBoth_places port).settleYield

theorem State.Becomes.keeps_placesSound (h : s.Becomes t) (hs : s.PlacesSound) : t.PlacesSound := by
  cases h with
  | stays => exact hs
  | poweredOn straps =>
    refine ⟨⟨Nat.zero_le _, Nat.zero_le _⟩, State.roomsSound_iff.mpr fun p _ => ?_⟩
    rw [State.waitingSlots_eq_nil]
    intro n
    have win : (s.powerOn straps).win n = Window.cleared (powerOnOwner straps n) none := by
      simp [State.win, State.powerOn, powerOnTable]
    rw [win]
    exact Window.waitingResponse_of_owed_none rfl p
  | pornFell => exact hs.of_eq rfl rfl fun _ _ h => h
  | frstReleased => exact hs.of_eq rfl rfl fun _ _ h => h
  | fabricReset =>
    have reset := hs.resetFabric
    generalize s.resetFabric = u at reset
    exact reset.of_eq rfl rfl fun _ _ h => h
  | requestArrived q =>
    obtain ⟨kind, h⟩ | ⟨kind, -, h⟩ := s.arrive_cases q <;> rw [h]
    · refine ⟨hs.1, hs.2.of_fewer (fun p => ?_) fun _ _ h => h⟩
      cases p <;> exact le_rfl
    · obtain ⟨-, h⟩ | ⟨-, h⟩ := s.admitRequest_cases q kind <;> rw [h] <;> exact hs.of_eq rfl rfl fun _ _ h => h
  | lookupDecided e =>
    obtain ⟨_, ⟨-, -, -, rest⟩, -⟩ := s.decideLookup_answers e
    have table := congrArg State.table rest
    have host := congrArg State.host rest
    have maint := congrArg State.maint rest
    refine hs.of_eq host maint fun n p none => ?_
    exact (congrArg (fun t : WindowTable => (t.windows[n.val]).waitingResponse p) table).trans none
  | verdictDeparted => obtain ⟨_, h⟩ := s.departVerdict_only; rw [h]; exact hs.of_eq rfl rfl fun _ _ h => h
  | ticketCompleted k r =>
    obtain ⟨_, h⟩ | ⟨-, h⟩ | ⟨n, -, h⟩ := s.complete_cases k r <;> rw [h]
    · refine ⟨hs.1, hs.2.of_fewer (fun p => ?_) fun _ _ h => h⟩
      cases p <;> exact le_rfl
    · exact hs.of_eq rfl rfl fun _ _ h => h
    · have returned : (s.ticketReturned k n).PlacesSound := hs.of_eq rfl rfl fun _ _ h => h
      obtain ⟨-, -, h⟩ | ⟨-, h⟩ := s.completeCounted_cases k n <;> rw [h]
      · exact (returned.endDrain n .drained).of_eq rfl rfl fun _ _ h => h
      · exact returned
  | ticked => obtain ⟨_, _, h⟩ := s.tick_only; rw [h]; exact hs.of_eq rfl rfl fun _ _ h => h
  | periodElapsed => obtain ⟨_, _, h⟩ := s.elapsePeriod_only; rw [h]; exact hs.of_eq rfl rfl fun _ _ h => h
  | slotVisited n endMark =>
    have granted : (s.grantTo .sweep).PlacesSound := hs.of_eq rfl rfl fun _ _ h => h
    cases endMark with
    | true => exact hs.of_eq rfl rfl fun _ _ h => h
    | false => exact (granted.visitSlot n).of_eq rfl rfl fun _ _ h => h
  | commandWritten privilege word => exact hs.writeCommand privilege word
  | tableCommand party operation c row hand granted =>
    have room := State.granted_place hand granted
    have held : (s.grantTo (engineOf party)).PlacesSound := hs.of_eq rfl rfl fun _ _ h => h
    have operated := row.operated (s.grantTo (engineOf party)) c
    refine (operated.keeps_placesSound held).finishCommand ?_ _
    obtain ⟨_, _, _, only⟩ := operated.only
    rw [only]
    cases party <;> exact room
  | answeredAtTaking effect c row mayTake =>
    have room := State.mayTake_place mayTake
    obtain ⟨_, _, _, _, h⟩ := row.effect_only s c
    refine State.PlacesSound.answerTaken ?_ ?_ _ <;> rw [h]
    · exact hs.of_eq rfl rfl fun _ _ h => h
    · exact room
  | refusedAtTaking r mayTake => exact hs.answerTaken (State.mayTake_place mayTake) r
  | toolAnswered => exact hs.answerUnknownTool
  | busRead word =>
    refine ⟨hs.1, hs.2.of_fewer (fun p => ?_) fun _ _ h => h⟩
    cases p <;> exact le_rfl
  | responseRead word =>
    obtain ⟨port, rooms⟩ := hs.advanceResponse
    refine ⟨port, rooms.of_fewer (fun p => ?_) fun _ _ h => h⟩
    cases p <;> exact le_rfl
  | hostOwedEntered => rw [hs.2.admitOwed]; exact hs.takeInHand
  | toolOwedEntered => rw [hs.2.admitOwed]; exact hs
  | stickyCleared word =>
    refine ⟨hs.1, hs.2.of_fewer (fun p => ?_) fun _ _ h => h⟩
    cases p <;> exact le_rfl
  | enablesWritten word =>
    refine ⟨hs.1, hs.2.of_fewer (fun p => ?_) fun _ _ h => h⟩
    cases p <;> exact le_rfl
  | portReset =>
    rw [s.resetPort_eq]
    exact hs.portEmptied.settleYield
  | frameArrived frame => exact hs.frameArrives frame
  | responseCaptured => exact hs.captureResponse
  | freeCaptured => exact hs.setMaint id
  | linkReset =>
    rw [s.resetLink_eq]
    exact hs.linkEmptied.settleYield

end
end Sys2Proof.Machine
end

section
/-!
When each claim is present (R35, R127, R128), and which events keep the claims beside a walk yield (R126).
-/
namespace Sys2Proof.Machine
section
variable {s t : State}

/-! ### Claims -/

theorem State.maintClaims_iff :
    s.maintClaims = true ↔
      s.maint.response = none ∧ ∃ c, s.maint.command = some c ∧ symOn .maint c.number ≠ none := by
  unfold State.maintClaims
  cases s.maint.command with
  | none => simp
  | some c => simp [State.roomFor, and_comm, Option.isSome_iff_ne_none]

theorem State.lookupClaims_iff :
    s.lookupClaims = true ↔ s.lookup.queue ≠ [] ∧ s.lookup.verdicts.length < 8 := by
  simp only [State.lookupClaims, Bool.and_eq_true, Bool.not_eq_true', List.isEmpty_eq_false_iff, ne_eq]
  exact and_congr_right fun _ => decide_eq_true_iff

/-- The host's responses have a place, and no owed response waits before them (R127, R140). -/
def State.HostAnswers (s : State) : Prop :=
  s.host.responses.length < 16 ∧ ∀ n : Slot, (s.win n).waitingResponse .host = none

theorem State.hostAnswers_iff :
    s.HostAnswers ↔ (s.responsePlaceFree && (s.lowestWaiting .host).isNone) = true := by
  rw [Bool.and_eq_true, Option.isNone_iff_eq_none, State.lowestWaiting_none]
  exact and_congr_left fun _ => decide_eq_true_iff.symm

theorem State.hostClaims_iff : s.hostClaims = true ↔ s.hostHand ≠ none ∧ s.HostAnswers := by
  rw [State.hostAnswers_iff, State.hostClaims, Bool.and_assoc, Bool.and_eq_true (Option.isSome _),
    Option.isSome_iff_ne_none]

theorem State.mayTake_iff :
    s.mayTake = true ↔ s.hostHand = none ∧ s.host.commands ≠ [] ∧ s.HostAnswers := by
  rw [State.hostAnswers_iff, State.mayTake, Bool.and_assoc, Bool.and_eq_true (_ && _), Bool.and_eq_true,
    Option.isNone_iff_eq_none, and_assoc]
  simp

theorem State.othersClaim_iff :
    s.othersClaim = true ↔ s.maintClaims = true ∨ s.lookupClaims = true ∨ s.hostClaims = true := by
  simp only [State.othersClaim, Bool.or_eq_true, or_assoc]

theorem State.hostClaims_false (hand : s.hostHand = none) : s.hostClaims = false := by
  simp [State.hostClaims, hand]

/-- The claims of the lookup and the maintenance engine stay with their blocks. -/
theorem State.othersClaim_mono (maint : s.maintClaims = true → t.maint = s.maint)
    (lookup : s.lookupClaims = true → t.lookupClaims = true) (host : s.hostClaims = true → t.hostClaims = true)
    (claim : s.othersClaim = true) : t.othersClaim = true := by
  rw [State.othersClaim_iff] at *
  rcases claim with claim | claim | claim
  · rw [State.maintClaims_iff, maint claim, ← State.maintClaims_iff]
    exact .inl claim
  · exact .inr (.inl (lookup claim))
  · exact .inr (.inr (host claim))

theorem State.lookupClaims_of_eq (h : t.lookup = s.lookup) (claim : s.lookupClaims = true) : t.lookupClaims = true := by
  rwa [State.lookupClaims_iff, h, ← State.lookupClaims_iff]

/-- Only an idle engine takes a command, so a claim of the host stays. -/
theorem State.takeInHand_othersClaim (claim : s.othersClaim = true) : s.takeInHand.othersClaim = true := by
  obtain h | ⟨c, rest, -, -, mayTake, h⟩ := s.takeInHand_cases
  · rwa [h]
  · refine State.othersClaim_mono (fun _ => by simp) (State.lookupClaims_of_eq (by simp)) (fun host => ?_) claim
    rw [State.hostClaims_false (State.mayTake_iff.mp mayTake).1] at host
    cases host

/-- The host claims only where no owed response waits for it, and an offer makes none wait. -/
theorem State.admitOwed_hostClaims (party : Party) (host : s.hostClaims = true) :
    (s.admitOwed party).hostClaims = true := by
  obtain ⟨hand, places, quiet⟩ := State.hostClaims_iff.mp host
  cases party with
  | host => rwa [s.admitOwed_stays .host (.inr quiet)]
  | maint =>
    obtain h | ⟨n, r, -, -, h⟩ := s.admitOwed_cases .maint
    · rwa [h]
    · have win : ∀ m, (s.admitOwed .maint).win m = (s.setWin n { s.win n with owed := none }).win m := by
        rw [h]
        exact fun _ => rfl
      rw [State.hostClaims_iff]
      refine ⟨by rwa [h], by rwa [h], fun m => ?_⟩
      rw [win, State.setWin_win]
      split
      · exact Window.waitingResponse_of_owed_none rfl .host
      · exact quiet m

theorem State.admitOwed_host_maint : (s.admitOwed .host).maint = s.maint := by
  obtain h | ⟨n, r, -, -, h⟩ := s.admitOwed_cases .host <;> rw [h]
  rfl

/-! ### The walk yield -/

theorem State.YieldSound.of_claims (hs : s.YieldSound) (yields : t.sweep.yields = s.sweep.yields)
    (claims : s.othersClaim = true → t.othersClaim = true) : t.YieldSound := fun h => claims (hs (yields ▸ h))

theorem State.YieldSound.of_no_yield (yields : t.sweep.yields = false) : t.YieldSound := fun h => by
  rw [yields] at h
  cases h

theorem State.sweepRequested_yields : s.sweepRequested.sweep.yields = s.sweep.yields := by
  have taken := s.sweepRequested_taken
  unfold SweepRequestTaken at taken
  split at taken
  · rw [taken]
  · split at taken <;> rw [taken]

theorem State.tick_yields : s.tick.sweep.yields = s.sweep.yields := by
  obtain h | ⟨_, -, -, ⟨-, h⟩ | ⟨-, -, h⟩ | ⟨-, -, h⟩⟩ := s.tick_cases <;> rw [h]
  exact State.sweepRequested_yields

theorem State.elapsePeriod_yields : s.elapsePeriod.sweep.yields = s.sweep.yields := by
  obtain h | ⟨_, -, -, h⟩ := s.elapsePeriod_cases <;> rw [h]
  exact State.sweepRequested_yields

theorem State.YieldSound.writeCommand (hs : s.YieldSound) (privilege : Privilege) (word : Word) :
    (s.writeCommand privilege word).YieldSound := by
  refine hs.of_claims (by rw [(s.writeCommand_only privilege word).sweep]) fun claim => ?_
  unfold State.writeCommand
  split
  · unfold State.takeHeader
    dsimp only
    split
    · exact claim
    · split
      · exact State.takeInHand_othersClaim (s := s.enqueueCommand (Command.ofHeader word) privilege) claim
      · exact claim
  · next c remaining _ =>
    unfold State.takeData
    dsimp only
    split
    · exact State.takeInHand_othersClaim claim
    · exact claim
  · exact claim

theorem State.YieldSound.arrive (hs : s.YieldSound) (q : LookupRequest) : (s.arrive q).YieldSound := by
  obtain ⟨kind, h⟩ | ⟨kind, -, h⟩ := s.arrive_cases q <;> rw [h]
  · exact hs
  · obtain ⟨-, h⟩ | ⟨-, h⟩ := s.admitRequest_cases q kind <;> rw [h]
    · refine hs.of_claims rfl (State.othersClaim_mono (fun _ => rfl) (fun lookup => ?_) id)
      rw [State.lookupClaims_iff] at *
      exact ⟨by simp, lookup.2⟩
    · exact State.settleYield_sound _

theorem State.YieldSound.departVerdict (hs : s.YieldSound) : s.departVerdict.YieldSound := by
  unfold State.departVerdict
  split
  · exact hs
  · next v rest head =>
    refine hs.of_claims rfl (State.othersClaim_mono (fun _ => rfl) (fun lookup => ?_) id)
    rw [State.lookupClaims_iff, head, List.length_cons] at lookup
    exact State.lookupClaims_iff.mpr ⟨lookup.1, by dsimp only; omega⟩

theorem State.YieldSound.complete (hs : s.YieldSound) (k : TicketNo) (r : Requester) : (s.complete k r).YieldSound := by
  obtain ⟨_, h⟩ | ⟨-, h⟩ | ⟨n, -, h⟩ := s.complete_cases k r <;> rw [h]
  · exact hs
  · exact hs
  · obtain ⟨-, -, h⟩ | ⟨-, h⟩ := s.completeCounted_cases k n <;> rw [h]
    · exact State.settleYield_sound _
    · exact hs

/-- A visit yields to the other claims that it leaves (R126). -/
theorem State.visit_yieldSound (n : Slot) (endMark : Bool) : (s.visit n endMark).YieldSound := by
  obtain ⟨_, _, only⟩ := s.visit_only n endMark
  intro h
  rwa [only.sweep] at h

/-- An operation under a grant ends without a yield (R126). -/
theorem Operated.finishCommand_yieldSound {party : Party} {c : Claimant} (h : Operated (s.grantTo c) party t)
    (response : Option Response) : (t.finishCommand party response).YieldSound := by
  obtain ⟨_, _, _, only⟩ := h.only
  refine State.YieldSound.of_no_yield ?_
  rw [(t.finishCommand_only party response).sweep, only]
  rfl

/-- The engine is idle as it takes a command, so the host has no claim to lose. -/
theorem State.YieldSound.answerTaken (hs : s.YieldSound) (hand : s.hostHand = none) (r : Response) :
    (s.answerTaken r).YieldSound := by
  refine hs.of_claims (by rw [(s.answerTaken_only r).sweep]) fun claim => State.takeInHand_othersClaim ?_
  refine State.othersClaim_mono (s := s) (fun _ => rfl) id (fun host => ?_) claim
  rw [State.hostClaims_false hand] at host
  cases host

/-- The tool's claim needs a command that its path has, and an unknown one is answered. -/
theorem State.YieldSound.answerUnknownTool (hs : s.YieldSound) : s.answerUnknownTool.YieldSound := by
  unfold State.answerUnknownTool
  split
  · exact hs
  · next c command =>
    split
    · next unknown =>
      refine hs.of_claims rfl (State.othersClaim_mono (fun maint => ?_) id id)
      obtain ⟨-, d, held, known⟩ := State.maintClaims_iff.mp maint
      rw [command, Option.some.injEq] at held
      rw [Bool.and_eq_true, Option.isNone_iff_eq_none, held] at unknown
      exact absurd unknown.1 known
    · exact hs

theorem State.YieldSound.frameArrives (hs : s.YieldSound) (frame : Frame) : (s.frameArrives frame).YieldSound := by
  unfold State.frameArrives
  split
  · next accepted =>
    simp only [State.frameAccepted, Bool.and_eq_true, Option.isNone_iff_eq_none] at accepted
    refine State.YieldSound.answerUnknownTool (hs.of_claims rfl (State.othersClaim_mono (fun maint => ?_) id id))
    obtain ⟨-, d, held, -⟩ := State.maintClaims_iff.mp maint
    rw [accepted.1.1] at held
    cases held
  · exact hs

theorem State.YieldSound.advanceResponse (hs : s.YieldSound) : s.advanceResponse.YieldSound := by
  refine hs.of_claims (by rw [s.advanceResponse_only.sweep]) fun claim => ?_
  obtain ⟨-, h⟩ | ⟨r, rest, queue, ⟨-, h⟩ | ⟨-, h⟩⟩ := s.advanceResponse_cases <;> rw [h]
  · exact claim
  · exact claim
  · refine State.takeInHand_othersClaim (State.othersClaim_mono (s := s)
      (fun _ => State.admitOwed_host_maint)
      (State.lookupClaims_of_eq (s.headLeft.admitOwed_only .host).lookup) (fun host => ?_) claim)
    refine State.admitOwed_hostClaims .host ?_
    obtain ⟨hand, places, quiet⟩ := State.hostClaims_iff.mp host
    exact State.hostClaims_iff.mpr ⟨hand, by simp only [State.headLeft, List.length_tail]; omega, quiet⟩

/-- The register is empty where the tool claims, and then no owed response waits for it. -/
theorem State.YieldSound.captureResponse (hs : s.YieldSound) (rooms : s.RoomsSound) :
    s.captureResponse.YieldSound := by
  refine hs.of_claims (by rw [s.captureResponse_only.sweep]) fun claim => ?_
  by_cases maint : s.maintClaims = true
  · obtain ⟨empty, command⟩ := State.maintClaims_iff.mp maint
    have quiet := (s.lowestWaiting_none .maint).mp
      (rooms .maint (by simp only [State.roomFor, empty, Option.isNone_none]))
    rw [s.captureResponse_eq, State.admitOwed_stays s.registerCaptured .maint (.inr quiet)]
    exact State.othersClaim_iff.mpr (.inl (State.maintClaims_iff.mpr ⟨rfl, command⟩))
  · exact State.othersClaim_mono (absurd · maint) (State.lookupClaims_of_eq s.captureResponse_only.lookup)
      (fun host => State.admitOwed_hostClaims (s := s.registerCaptured) .maint host) claim

theorem State.Becomes.keeps_yieldSound (h : s.Becomes t) (rooms : s.RoomsSound) (hs : s.YieldSound) :
    t.YieldSound := by
  cases h with
  | poweredOn => exact .of_no_yield rfl
  | fabricReset =>
    have settled : s.resetFabric.YieldSound := by
      rw [s.resetFabric_eq]
      exact State.settleYield_sound _
    generalize s.resetFabric = u at settled
    exact settled
  | requestArrived q => exact hs.arrive q
  | lookupDecided e =>
    obtain ⟨_, ⟨-, -, sweep, -⟩, -⟩ := s.decideLookup_answers e
    exact .of_no_yield (by rw [sweep])
  | verdictDeparted => exact hs.departVerdict
  | ticketCompleted k r => exact hs.complete k r
  | ticked =>
    refine hs.of_claims State.tick_yields ?_
    obtain ⟨_, _, h⟩ := s.tick_only
    rw [h]
    exact id
  | periodElapsed =>
    refine hs.of_claims State.elapsePeriod_yields ?_
    obtain ⟨_, _, h⟩ := s.elapsePeriod_only
    rw [h]
    exact id
  | slotVisited n endMark => exact State.visit_yieldSound n endMark
  | commandWritten privilege word => exact hs.writeCommand privilege word
  | tableCommand party operation c row => exact (row.operated _ c).finishCommand_yieldSound _
  | answeredAtTaking effect c row mayTake =>
    obtain ⟨_, _, _, _, h⟩ := row.effect_only s c
    refine State.YieldSound.answerTaken ?_ ?_ _ <;> rw [h]
    · exact hs
    · exact (State.mayTake_iff.mp mayTake).1
  | refusedAtTaking r mayTake => exact hs.answerTaken (State.mayTake_iff.mp mayTake).1 r
  | toolAnswered => exact hs.answerUnknownTool
  | responseRead => exact hs.advanceResponse
  | hostOwedEntered =>
    rw [rooms.admitOwed]
    exact hs.of_claims (by simp) State.takeInHand_othersClaim
  | toolOwedEntered => rw [rooms.admitOwed]; exact hs
  | portReset => rw [s.resetPort_eq]; exact State.settleYield_sound _
  | frameArrived frame => exact hs.frameArrives frame
  | responseCaptured => exact hs.captureResponse rooms
  | linkReset => rw [s.resetLink_eq]; exact State.settleYield_sound _
  | _ => exact hs

end
end Sys2Proof.Machine
end

section
open Sys2Proof Sys2Proof.Machine

/-- Settles O5: each part of the invariant holds after every case of what the state may become. -/
theorem stepKeepsQueues : Obligations.StepKeepsQueues := by
  refine fun _ _ hs run => step_keeps (P := State.QueuesSound) (fun _ _ hs => hs) (fun s t becomes hs => ?_) hs run
  obtain ⟨engine, port, arbiter, rooms, yields⟩ := State.queuesSound_iff.mp hs
  obtain ⟨port', rooms'⟩ := becomes.keeps_placesSound ⟨port, rooms⟩
  exact State.queuesSound_iff.mpr ⟨becomes.keeps_engineSound engine, port', becomes.keeps_arbiterSound arbiter, rooms',
    becomes.keeps_yieldSound rooms yields⟩

end

section
/-!
The layouts (R180 to R183): a word laid out as fields reads back field by field, and a mask of stray positions finds
the words that hold a 1 outside their fields.
-/
namespace Sys2Proof.Machine

/-! ### Words by their bits -/

theorem extractLsb'_eq_zero_iff {w : Nat} (x : BitVec w) (lo len : Nat) :
    x.extractLsb' lo len = 0#len ↔ ∀ i, lo ≤ i → i < lo + len → x.getLsbD i = false := by
  constructor
  · intro h i low high
    have bit := congrArg (fun y => y.getLsbD (i - lo)) h
    simpa [show i - lo < len by omega, Nat.add_sub_cancel' low] using bit
  · intro h
    refine BitVec.eq_of_getLsbD_eq fun i hi => ?_
    simpa [hi] using h (lo + i) (by omega) (by omega)

theorem and_eq_zero_iff {w : Nat} (x m : BitVec w) :
    x &&& m = 0#w ↔ ∀ i, i < w → m.getLsbD i = true → x.getLsbD i = false := by
  constructor
  · intro h i _ mask
    have bit := congrArg (fun y => y.getLsbD i) h
    simpa [mask] using bit
  · intro h
    refine BitVec.eq_of_getLsbD_eq fun i hi => ?_
    have bit := h i hi
    cases mask : m.getLsbD i <;> simp_all

theorem and_not_eq_zero_iff {w : Nat} (x m : BitVec w) :
    x &&& ~~~m = 0#w ↔ ∀ i, i < w → x.getLsbD i = true → m.getLsbD i = true := by
  rw [and_eq_zero_iff]
  refine forall_congr' fun i => forall_congr' fun hi => ?_
  rw [BitVec.getLsbD_not]
  cases x.getLsbD i <;> cases m.getLsbD i <;> simp [hi]

theorem policyStray_bit : ∀ i : Fin 32, policyStray.getLsbD i = true ↔ i.val = 3 ∨ i.val = 7 ∨ 19 ≤ i.val := by decide
theorem membershipStray_bit : ∀ i : Fin 32, membershipStray.getLsbD i = true ↔ 19 ≤ i.val := by decide
theorem maskStray_bit : ∀ i : Fin 32, maskStray.getLsbD i = true ↔ i.val = 2 := by decide

/-! ### Written record words (R180) -/

theorem membershipWordGood_iff (word : Word) : membershipWordGood word = true ↔ MembershipAccepted word := by
  rw [membershipWordGood, beq_iff_eq, and_eq_zero_iff, MembershipAccepted, extractLsb'_eq_zero_iff]
  constructor
  · exact fun h i low high => h i high ((membershipStray_bit ⟨i, high⟩).mpr low)
  · exact fun h i high stray => h i ((membershipStray_bit ⟨i, high⟩).mp stray) high

theorem policyWordGood_iff (word : Word) : policyWordGood word = true ↔ PolicyAccepted word := by
  rw [policyWordGood, Bool.and_eq_true, Bool.not_eq_true', beq_iff_eq, and_eq_zero_iff, PolicyAccepted,
    extractLsb'_eq_zero_iff]
  refine and_congr_right fun _ => ?_
  constructor
  · intro h
    exact ⟨h 3 (by decide) (by decide), h 7 (by decide) (by decide),
      fun i low high => h i high ((policyStray_bit ⟨i, high⟩).mpr (.inr (.inr low)))⟩
  · rintro ⟨three, seven, high⟩ i hi stray
    obtain rfl | rfl | low := (policyStray_bit ⟨i, hi⟩).mp stray
    · exact three
    · exact seven
    · exact high i low hi

theorem maskStray_iff (word : Word) : word &&& maskStray = 0#32 ↔ word.getLsbD 2 = false := by
  rw [and_eq_zero_iff]
  constructor
  · exact fun h => h 2 (by decide) (by decide)
  · intro h i hi stray
    rwa [show i = 2 from (maskStray_bit ⟨i, hi⟩).mp stray]

theorem targetBits_eq_zero_iff (base mask : Word) :
    targetBits base mask = 0#6 ↔ base.extractLsb' 0 4 = 0#4 ∧ mask.extractLsb' 0 2 = 0#2 := by
  constructor
  · intro h
    have low := congrArg (fun y : BitVec 6 => y.extractLsb' 0 4) h
    have high := congrArg (fun y : BitVec 6 => y.extractLsb' 4 2) h
    simp only [targetBits, BitVec.extractLsb'_append_eq_left, BitVec.extractLsb'_append_eq_right,
      BitVec.extractLsb'_zero] at low high
    exact ⟨low, high⟩
  · rintro ⟨low, high⟩
    rw [targetBits, low, high]
    rfl

theorem stagedFieldsGood_iff (base policy membership mask : Word) :
    stagedFieldsGood base policy membership mask = true ↔ StagedFieldsAccepted base policy membership mask := by
  simp only [stagedFieldsGood, Bool.and_eq_true, policyWordGood_iff, membershipWordGood_iff, maskStray_iff,
    Bool.or_eq_true, beq_iff_eq, targetBits_eq_zero_iff, StagedFieldsAccepted, and_assoc, decide_eq_true_eq,
    BitVec.le_def, targetPresent]
  refine and_congr_right fun _ => and_congr_right fun _ => and_congr_right fun _ => and_congr_right fun _ => ?_
  cases mask.getLsbD 3 <;> simp

theorem templateGood_iff (base mask : Word) :
    templateGood (base.extractLsb' 12 20) (mask.extractLsb' 12 20) = true ↔ TemplateAccepted base mask := by
  rw [templateGood, beq_iff_eq, and_not_eq_zero_iff, TemplateAccepted]
  constructor
  · intro h i low high
    have bit := h (i - 12) (by omega)
    simpa [show i - 12 < 20 by omega, Nat.add_sub_cancel' low] using bit
  · intro h i hi
    simpa [hi] using h (12 + i) (by omega) (by omega)

/-- A slot number and its six bits. -/
theorem ofNat_slotField (bits : BitVec 6) : BitVec.ofNat 6 (slotField bits 0).val = bits := by
  revert bits; decide

theorem slotField_ofNat (n : Slot) : slotField (BitVec.ofNat 6 n.val) 0 = n := by
  revert n; decide

theorem suppliesTarget_iff (base mask : Word) (target : Option Slot) :
    SuppliesTarget base mask target ↔ suppliedTarget base mask = target := by
  unfold SuppliesTarget suppliedTarget targetPresent
  split
  · constructor
    · rintro ⟨n, rfl, bits⟩
      rw [targetBits, ← bits, slotField_ofNat]
    · rintro rfl
      exact ⟨_, rfl, ofNat_slotField _⟩
  · exact eq_comm

/-! ### Policies and the words that hold them (R180) -/

theorem BusWidth.ofBits_bits (bits : BitVec 2) : (BusWidth.ofBits bits).bits = bits := by
  revert bits; decide

/-- A field of a field is a field of the word. -/
theorem extractLsb'_field {w : Nat} (x : BitVec w) {lo len start size : Nat} (inside : lo + len ≤ size) :
    (x.extractLsb' start size).extractLsb' lo len = x.extractLsb' (start + lo) len := by
  refine BitVec.eq_of_getLsbD_eq fun i hi => ?_
  simp [hi, show lo + i < size by omega, Nat.add_assoc]

/-- A field of two words side by side stands in one of them, or across the border. -/
theorem extractLsb'_append_field {v w : Nat} (x : BitVec v) (y : BitVec w) (lo len : Nat) :
    (x ++ y).extractLsb' lo len =
      if w ≤ lo then x.extractLsb' (lo - w) len
      else if lo + len ≤ w then y.extractLsb' lo len
      else ((x ++ y) >>> lo).setWidth len := by
  split
  · next high => exact BitVec.extractLsb'_append_eq_of_le high
  · split
    · next low => exact BitVec.extractLsb'_append_eq_of_add_le low
    · exact BitVec.setWidth_ushiftRight_eq_extractLsb.symm

theorem holdsPolicy_ofWord (word : Word) : HoldsPolicy word (Policy.ofWord word) := by
  simp [HoldsPolicy, Policy.ofWord, Rights.ofBits, Attributes.ofBits, BusWidth.ofBits_bits, ByteOrder.ofBool,
    extractLsb'_field]

-- In the layouts below `rw` sees through the width 32 to the sum of widths that an append has, where `simp` does not.

theorem EnforceMode.bits_bit (mode : EnforceMode) :
    mode.bits[0] = (mode == .watch) ∧ mode.bits[1] = false := by
  cases mode <;> decide

theorem Policy.word_bits (p : Policy) :
    p.word.getLsbD 0 = p.user.read ∧ p.word.getLsbD 1 = p.user.write ∧ p.word.getLsbD 2 = p.user.fetch ∧
    p.word.getLsbD 3 = false ∧ p.word.getLsbD 4 = p.supervisor.read ∧ p.word.getLsbD 5 = p.supervisor.write ∧
    p.word.getLsbD 6 = p.supervisor.fetch ∧ p.word.getLsbD 7 = false ∧ p.word.getLsbD 8 = (p.mode == .watch) ∧
    p.word.getLsbD 9 = false ∧ p.word.getLsbD 16 = p.attrs.burst ∧ p.word.getLsbD 17 = p.attrs.byteOrder.big? ∧ p.word.getLsbD 18 = p.attrs.cacheable := by
  obtain ⟨low, high⟩ := p.mode.bits_bit
  unfold Policy.word Rights.bits Attributes.bits
  refine ⟨?_, ?_, ?_, ?_, ?_, ?_, ?_, ?_, ?_, ?_, ?_, ?_, ?_⟩ <;>
    (repeat rw [BitVec.getLsbD_append]) <;> simp [low, high]

theorem Policy.word_fields (p : Policy) :
    p.word.extractLsb' 10 2 = p.attrs.width.bits ∧
    p.word.extractLsb' 12 4 = p.attrs.waitProfile ∧ p.word.extractLsb' 19 13 = 0#13 := by
  unfold Policy.word Rights.bits Attributes.bits
  refine ⟨?_, ?_, ?_⟩ <;> (repeat rw [extractLsb'_append_field]) <;> simp

/-- A word whose policy bits are those of a policy holds that policy. -/
theorem HoldsPolicy.of_bits {word : Word} {p : Policy}
    (user : p.user = ⟨word.getLsbD 0, word.getLsbD 1, word.getLsbD 2⟩)
    (supervisor : p.supervisor = ⟨word.getLsbD 4, word.getLsbD 5, word.getLsbD 6⟩)
    (mode : word.getLsbD 8 = (p.mode == .watch)) (width : word.extractLsb' 10 2 = p.attrs.width.bits)
    (wait : word.extractLsb' 12 4 = p.attrs.waitProfile) (burst : word.getLsbD 16 = p.attrs.burst)
    (order : word.getLsbD 17 = p.attrs.byteOrder.big?) (cacheable : word.getLsbD 18 = p.attrs.cacheable) :
    HoldsPolicy word p := by
  refine ⟨user, supervisor, ?_, width.symm, wait.symm, burst.symm, ?_, cacheable.symm⟩
  · rw [mode]
    cases p.mode <;> rfl
  · rw [order]
    cases p.attrs.byteOrder <;> rfl

theorem Policy.word_holds (p : Policy) : HoldsPolicy p.word p := by
  obtain ⟨r, w, f, -, r', w', f', -, mode, -, burst, order, cacheable⟩ := p.word_bits
  obtain ⟨width, wait, -⟩ := p.word_fields
  exact .of_bits (by rw [r, w, f]) (by rw [r', w', f']) mode width wait burst order cacheable

theorem Policy.word_accepted (p : Policy) : PolicyAccepted p.word := by
  obtain ⟨-, -, -, three, -, -, -, seven, -, nine, -⟩ := p.word_bits
  obtain ⟨-, -, stray⟩ := p.word_fields
  exact ⟨nine, three, seven, stray⟩

/-! ### Membership, base and mask word (R180, R181) -/

theorem Window.membershipWord_fields (w : Window) :
    w.membershipWord.extractLsb' 0 16 = w.members ∧ w.membershipWord.extractLsb' 16 3 = w.rank ∧
    w.membershipWord.extractLsb' 19 13 = 0#13 := by
  unfold Window.membershipWord
  refine ⟨?_, ?_, ?_⟩ <;> (repeat rw [extractLsb'_append_field]) <;> simp

/-- The three fields of a membership word fix it. -/
theorem membershipWord_ext {x y : Word} (members : x.extractLsb' 0 16 = y.extractLsb' 0 16)
    (rank : x.extractLsb' 16 3 = y.extractLsb' 16 3) (stray : x.extractLsb' 19 13 = y.extractLsb' 19 13) : x = y := by
  have glued : ∀ z : Word, z = z.extractLsb' 19 13 ++ (z.extractLsb' 16 3 ++ z.extractLsb' 0 16) := fun z => by
    rw [BitVec.extractLsb'_append_extractLsb'_eq_extractLsb' (by rfl),
      BitVec.extractLsb'_append_extractLsb'_eq_extractLsb' (by rfl)]
    exact BitVec.extractLsb'_eq_self.symm
  rw [glued x, glued y, members, rank, stray]

theorem Window.baseWord_fields (w : Window) :
    w.baseWord.extractLsb' 12 20 = w.base ∧ w.baseWord.extractLsb' 4 8 = w.reload ∧
    w.baseWord.extractLsb' 0 4 = (optionSlotBits w.target).extractLsb' 0 4 := by
  unfold Window.baseWord
  refine ⟨?_, ?_, ?_⟩ <;> (repeat rw [extractLsb'_append_field]) <;> simp

theorem Window.maskWord_fields (w : Window) :
    w.maskWord.extractLsb' 12 20 = w.mask ∧ w.maskWord.extractLsb' 4 8 = w.remaining ∧
    w.maskWord.extractLsb' 0 2 = (optionSlotBits w.target).extractLsb' 4 2 := by
  unfold Window.maskWord
  refine ⟨?_, ?_, ?_⟩ <;> (repeat rw [extractLsb'_append_field]) <;> simp

theorem Window.maskWord_bits (w : Window) :
    w.maskWord.getLsbD 2 = false ∧ w.maskWord.getLsbD 3 = w.target.isSome := by
  unfold Window.maskWord
  refine ⟨?_, ?_⟩ <;> (repeat rw [BitVec.getLsbD_append]) <;> simp

/-! ### The reported form (R181) -/

theorem Window.reportedPolicyWord_bits (w : Window) :
    w.reportedPolicyWord.getLsbD 0 = w.policy.user.read ∧ w.reportedPolicyWord.getLsbD 1 = w.policy.user.write ∧
    w.reportedPolicyWord.getLsbD 2 = w.policy.user.fetch ∧ w.reportedPolicyWord.getLsbD 3 = false ∧
    w.reportedPolicyWord.getLsbD 4 = w.policy.supervisor.read ∧
    w.reportedPolicyWord.getLsbD 5 = w.policy.supervisor.write ∧
    w.reportedPolicyWord.getLsbD 6 = w.policy.supervisor.fetch ∧ w.reportedPolicyWord.getLsbD 7 = false ∧
    w.reportedPolicyWord.getLsbD 8 = (w.policy.mode == .watch) ∧ w.reportedPolicyWord.getLsbD 9 = false ∧
    w.reportedPolicyWord.getLsbD 16 = w.policy.attrs.burst ∧
    w.reportedPolicyWord.getLsbD 17 = w.policy.attrs.byteOrder.big? ∧
    w.reportedPolicyWord.getLsbD 18 = w.policy.attrs.cacheable := by
  obtain ⟨low, high⟩ := w.policy.mode.bits_bit
  unfold Window.reportedPolicyWord Rights.bits Attributes.bits
  refine ⟨?_, ?_, ?_, ?_, ?_, ?_, ?_, ?_, ?_, ?_, ?_, ?_, ?_⟩ <;>
    (repeat rw [BitVec.getLsbD_append]) <;> simp [low, high]

theorem Window.reportedPolicyWord_fields (w : Window) :
    w.reportedPolicyWord.extractLsb' 10 2 = w.policy.attrs.width.bits ∧
    w.reportedPolicyWord.extractLsb' 12 4 = w.policy.attrs.waitProfile ∧
    w.reportedPolicyWord.extractLsb' 19 3 = 0#3 ∧ w.reportedPolicyWord.extractLsb' 22 2 = owedOutcomeBits w.owed ∧
    w.reportedPolicyWord.extractLsb' 24 6 = w.state.drainBits ∧
    w.reportedPolicyWord.extractLsb' 30 2 = owedBits w.owed := by
  unfold Window.reportedPolicyWord Rights.bits Attributes.bits
  refine ⟨?_, ?_, ?_, ?_, ?_, ?_⟩ <;> (repeat rw [extractLsb'_append_field]) <;> simp

theorem Window.reportedMembershipWord_fields (w : Window) (useCount : Nat) :
    (w.reportedMembershipWord useCount).extractLsb' 0 16 = w.members ∧
    (w.reportedMembershipWord useCount).extractLsb' 16 3 = w.rank ∧
    (w.reportedMembershipWord useCount).extractLsb' 20 2 = w.state.bits ∧
    (w.reportedMembershipWord useCount).extractLsb' 24 6 = BitVec.ofNat 6 useCount ∧
    (w.reportedMembershipWord useCount).extractLsb' 30 2 = 0#2 := by
  unfold Window.reportedMembershipWord
  refine ⟨?_, ?_, ?_, ?_, ?_⟩ <;> (repeat rw [extractLsb'_append_field]) <;> simp

theorem Window.reportedMembershipWord_bits (w : Window) (useCount : Nat) :
    (w.reportedMembershipWord useCount).getLsbD 19 = false ∧
    (w.reportedMembershipWord useCount).getLsbD 22 = partyBit w.owner ∧
    (w.reportedMembershipWord useCount).getLsbD 23 = w.fresh := by
  unfold Window.reportedMembershipWord
  refine ⟨?_, ?_, ?_⟩ <;> (repeat rw [BitVec.getLsbD_append]) <;> simp

theorem partyBit_eq (party : Party) : partyBit party = (party == .maint) := by cases party <;> rfl

theorem owedBits_bits (o : Owed) :
    (owedBits (some o)).getLsbD 0 = true ∧ (owedBits (some o)).getLsbD 1 = (o.party == .maint) := by
  rw [← partyBit_eq]
  unfold owedBits
  refine ⟨?_, ?_⟩ <;> rw [BitVec.getLsbD_append] <;> simp

/-- What [QRY] reports is the record in the reported form, field by field (R96, R181). -/
theorem Window.reportedIn (w : Window) (useCount : Nat) :
    ReportedIn w useCount w.baseWord w.reportedPolicyWord (w.reportedMembershipWord useCount) w.maskWord := by
  obtain ⟨base, reload, targetLow⟩ := w.baseWord_fields
  obtain ⟨mask, remaining, targetHigh⟩ := w.maskWord_fields
  obtain ⟨two, present⟩ := w.maskWord_bits
  obtain ⟨members, rank, state, use, stray⟩ := w.reportedMembershipWord_fields useCount
  obtain ⟨nineteen, owner, fresh⟩ := w.reportedMembershipWord_bits useCount
  obtain ⟨ur, uw, uf, three, sr, sw, sf, seven, mode, nine, burst, order, cacheable⟩ := w.reportedPolicyWord_bits
  obtain ⟨width, wait, gap, outcome, drain, owed⟩ := w.reportedPolicyWord_fields
  refine ⟨base, reload, mask, remaining, two, ?_, members, rank, nineteen, state, owner.trans (partyBit_eq _), fresh,
    use, stray, .of_bits (by rw [ur, uw, uf]) (by rw [sr, sw, sf]) mode width wait burst order cacheable, nine, three,
    seven, gap, ?_, ?_⟩
  · rw [targetLow, targetHigh, present]
    cases w.target with
    | none => exact ⟨rfl, rfl, rfl⟩
    | some n =>
      refine ⟨rfl, ?_⟩
      rw [BitVec.extractLsb'_append_extractLsb'_eq_extractLsb' (by rfl)]
      exact BitVec.extractLsb'_eq_self
  · cases h : w.state with
    | draining cause age =>
      rw [h] at drain
      have field : ∀ lo len, lo + len ≤ 6 → w.reportedPolicyWord.extractLsb' (24 + lo) len =
          (cause.bits ++ age).extractLsb' lo len := fun lo len inside => by
        rw [← extractLsb'_field _ inside, drain]
        rfl
      exact ⟨(field 4 2 (by decide)).trans BitVec.extractLsb'_append_eq_left,
        (field 0 4 (by decide)).trans BitVec.extractLsb'_append_eq_right⟩
    | _ => rw [h] at drain; exact drain
  · cases h : w.owed with
    | none => rw [h] at owed outcome; exact ⟨owed, outcome⟩
    | some o =>
      rw [h] at owed outcome
      have bit : ∀ i, i < 2 → w.reportedPolicyWord.getLsbD (30 + i) = (owedBits (some o)).getLsbD i := fun i hi => by
        rw [← owed, BitVec.getLsbD_extractLsb', decide_eq_true hi, Bool.true_and]
      obtain ⟨present, party⟩ := owedBits_bits o
      exact ⟨(bit 0 (by decide)).trans present, (bit 1 (by decide)).trans party, outcome⟩

end Sys2Proof.Machine
end

section
/-!
The operations of the table commands, an equation per case (R74, R76 to R99), in the order of their checks.
-/
namespace Sys2Proof.Machine
section
variable {s : State} {party : Party} {c : Command}

/-! ### Staging (R80 to R83) -/

theorem stgOperation_otherOwner (owner : (s.win c.slot).owner ≠ party) :
    stgOperation party c s = s.refuse c .owner := by
  simp [stgOperation, owner]

theorem stgOperation_notFree (owner : (s.win c.slot).owner = party)
    (taken : (s.win c.slot).isFree = false ∨ (s.win c.slot).isHeld = true) :
    stgOperation party c s = s.refuse c .notFree := by
  rcases taken with taken | taken <;> simp [stgOperation, owner, taken]

/-- The slot that [STG] may write: the party's, FREE and not held (R76). -/
def State.Stageable (s : State) (party : Party) (n : Slot) : Prop :=
  (s.win n).owner = party ∧ (s.win n).isFree = true ∧ (s.win n).isHeld = false

theorem stgOperation_badField (slot : s.Stageable party c.slot)
    (fields : stagedFieldsGood (c.word 0) (c.word 1) (c.word 2) (c.word 3) = false) :
    stgOperation party c s = s.refuse c .badField := by
  obtain ⟨owner, free, unheld⟩ := slot
  simp [stgOperation, owner, free, unheld, fields]

theorem stgOperation_badTemplate (slot : s.Stageable party c.slot)
    (fields : stagedFieldsGood (c.word 0) (c.word 1) (c.word 2) (c.word 3) = true)
    (template : templateGood ((c.word 0).extractLsb' 12 20) ((c.word 3).extractLsb' 12 20) = false) :
    stgOperation party c s = s.refuse c .badTemplate := by
  obtain ⟨owner, free, unheld⟩ := slot
  simp [stgOperation, owner, free, unheld, fields, template]

theorem stgOperation_badSupersede (slot : s.Stageable party c.slot)
    (fields : stagedFieldsGood (c.word 0) (c.word 1) (c.word 2) (c.word 3) = true)
    (template : templateGood ((c.word 0).extractLsb' 12 20) ((c.word 3).extractLsb' 12 20) = true)
    (target : s.targetGood party c.slot (suppliedTarget (c.word 0) (c.word 3)) = false) :
    stgOperation party c s = s.refuse c .badSupersede := by
  obtain ⟨owner, free, unheld⟩ := slot
  simp [stgOperation, owner, free, unheld, fields, template, target]

theorem stgOperation_staged (slot : s.Stageable party c.slot)
    (fields : stagedFieldsGood (c.word 0) (c.word 1) (c.word 2) (c.word 3) = true)
    (template : templateGood ((c.word 0).extractLsb' 12 20) ((c.word 3).extractLsb' 12 20) = true)
    (target : s.targetGood party c.slot (suppliedTarget (c.word 0) (c.word 3)) = true) :
    stgOperation party c s =
      (s.setWin c.slot (stagedWindow party (c.word 0) (c.word 1) (c.word 2) (c.word 3)), some (c.reply .ok)) := by
  obtain ⟨owner, free, unheld⟩ := slot
  simp [stgOperation, owner, free, unheld, fields, template, target]

theorem Window.isHeld_false_iff {w : Window} (free : w.isFree = true) : w.isHeld = false ↔ w.owed = none := by
  simp [Window.isHeld, free]

theorem State.targetGood_some_iff {n t : Slot} :
    s.targetGood party n (some t) = true ↔ TargetAccepted s party n t := by
  simp [State.targetGood, State.namedAsTarget, allSlots, TargetAccepted, Window.isLive_iff, and_assoc]

/-- The window that [STG] writes holds the supplied content (R80, R180). -/
theorem stagedWindow_stagedAs (base policy membership mask : Word) :
    StagedAs party base policy membership mask (stagedWindow party base policy membership mask) :=
  ⟨⟨_, rfl, (suppliesTarget_iff base mask _).mpr rfl⟩, rfl, rfl, rfl, rfl, rfl, holdsPolicy_ofWord policy, rfl, rfl, rfl,
    rfl⟩

theorem abnOperation_otherOwner (owner : (s.win c.slot).owner ≠ party) :
    abnOperation party c s = s.refuse c .owner := by
  simp [abnOperation, owner]

theorem abnOperation_notStaged (owner : (s.win c.slot).owner = party) (state : (s.win c.slot).isStaged = false) :
    abnOperation party c s = s.refuse c .notStaged := by
  simp [abnOperation, owner, state]

theorem abnOperation_abandoned (owner : (s.win c.slot).owner = party) (state : (s.win c.slot).isStaged = true) :
    abnOperation party c s = (s.setWin c.slot (Window.cleared party none), some (c.reply .ok)) := by
  simp [abnOperation, owner, state]

/-! ### Retire and renew (R88, R91) -/

theorem rtrOperation_otherOwner (owner : (s.win c.slot).owner ≠ party) :
    rtrOperation party c s = s.refuse c .owner := by
  simp [rtrOperation, owner]

theorem rtrOperation_leaseGone (owner : (s.win c.slot).owner = party) (state : (s.win c.slot).isDraining = true) :
    rtrOperation party c s = s.refuse c .leaseGone := by
  simp [rtrOperation, owner, state]

theorem rtrOperation_notLive (owner : (s.win c.slot).owner = party) (notDraining : (s.win c.slot).isDraining = false)
    (state : (s.win c.slot).isLive = false) : rtrOperation party c s = s.refuse c .notLive := by
  simp [rtrOperation, owner, notDraining, state]

/-- A LIVE window is in no other state. -/
theorem Window.notDraining_of_live {w : Window} (live : w.state = .live) : w.isDraining = false ∧ w.isLive = true := by
  simp [Window.isDraining, Window.isLive, live]

theorem rtrOperation_retired (owner : (s.win c.slot).owner = party) (live : (s.win c.slot).state = .live) :
    rtrOperation party c s =
      (s.setWin c.slot ((s.win c.slot).enterDrain .retire (some ⟨party, c.tag, none⟩) (s.use c.slot)),
        if s.use c.slot = 0 then some (c.reply .drained) else none) := by
  simp [rtrOperation, owner, Window.notDraining_of_live live]

theorem Window.enterDrain_drained (w : Window) (cause : DrainCause) (owed : Option Owed) (useCount : Nat) :
    Drained cause owed useCount w (w.enterDrain cause owed useCount) := by
  constructor <;> intro h <;> simp [Window.enterDrain, h]

theorem rnwOperation_otherOwner (owner : (s.win c.slot).owner ≠ party) :
    rnwOperation party c s = s.refuse c .owner := by
  simp [rnwOperation, owner]

theorem rnwOperation_leaseGone (owner : (s.win c.slot).owner = party) (state : (s.win c.slot).isDraining = true) :
    rnwOperation party c s = s.refuse c .leaseGone := by
  simp [rnwOperation, owner, state]

theorem rnwOperation_notLive (owner : (s.win c.slot).owner = party) (notDraining : (s.win c.slot).isDraining = false)
    (state : (s.win c.slot).isLive = false) : rnwOperation party c s = s.refuse c .notLive := by
  simp [rnwOperation, owner, notDraining, state]

theorem rnwOperation_badField (owner : (s.win c.slot).owner = party) (live : (s.win c.slot).state = .live)
    (action : c.newReload (s.win c.slot).reload = none) : rnwOperation party c s = s.refuse c .badField := by
  simp [rnwOperation, owner, Window.notDraining_of_live live, action]

theorem rnwOperation_renewed (owner : (s.win c.slot).owner = party) (live : (s.win c.slot).state = .live)
    {reload : BitVec 8} (action : c.newReload (s.win c.slot).reload = some reload) :
    rnwOperation party c s =
      (s.setWin c.slot { s.win c.slot with reload := reload, remaining := reload, fresh := true },
        some (c.replyWith .ok [BitVec.ofNat 32 reload.toNat])) := by
  simp [rnwOperation, owner, Window.notDraining_of_live live, action]

/-! ### Modify (R93, R94) -/

theorem modOperation_otherOwner (owner : (s.win c.slot).owner ≠ party) :
    modOperation party c s = s.refuse c .owner := by
  simp [modOperation, owner]

theorem modOperation_notStagedOrLive (owner : (s.win c.slot).owner = party)
    (state : (s.win c.slot).isStaged = false ∧ (s.win c.slot).isLive = false) :
    modOperation party c s = s.refuse c .notStagedOrLive := by
  simp [modOperation, owner, state]

/-- The slot that [MOD] may modify: the party's, STAGED or LIVE (R93). -/
def State.Modifiable (s : State) (party : Party) (n : Slot) : Prop :=
  (s.win n).owner = party ∧ ((s.win n).isStaged = true ∨ (s.win n).isLive = true)

theorem modOperation_reserved (slot : s.Modifiable party c.slot) (selector : c.selected = none) :
    modOperation party c s = (s, some (c.replyWith .badField [0#32])) := by
  obtain ⟨owner, state⟩ := slot
  rcases state with state | state <;> simp [modOperation, owner, state, selector]

theorem modOperation_refused (slot : s.Modifiable party c.slot) {selected : RecordWord}
    (selector : c.selected = some selected) {old new : Word} (read : (s.win c.slot).selectedWord selected = old)
    (masked : maskedWord old (c.word 1) (c.word 2) = new) (bad : selected.good new = false) :
    modOperation party c s = (s, some (c.replyWith .badField [old])) := by
  obtain ⟨owner, state⟩ := slot
  rcases state with state | state <;> simp [modOperation, owner, state, selector, read, masked, bad]

theorem modOperation_modified (slot : s.Modifiable party c.slot) {selected : RecordWord}
    (selector : c.selected = some selected) {old new : Word} (read : (s.win c.slot).selectedWord selected = old)
    (masked : maskedWord old (c.word 1) (c.word 2) = new) (good : selected.good new = true) :
    modOperation party c s =
      (s.setWin c.slot ((s.win c.slot).withSelectedWord selected new), some (c.replyWith .ok [old])) := by
  obtain ⟨owner, state⟩ := slot
  rcases state with state | state <;> simp [modOperation, owner, state, selector, read, masked, good]

/-- The masked modify, bit by bit (R93). -/
theorem maskedWord_eq_iff (old value mask new : Word) :
    maskedWord old value mask = new ↔
      ∀ i, new.getLsbD i = if mask.getLsbD i = true then value.getLsbD i else old.getLsbD i := by
  have bits : ∀ i, (maskedWord old value mask).getLsbD i =
      if mask.getLsbD i = true then value.getLsbD i else old.getLsbD i := fun i => by
    rcases Nat.lt_or_ge i 32 with inside | outside
    · simp only [maskedWord, BitVec.getLsbD_or, BitVec.getLsbD_and, BitVec.getLsbD_not]
      cases mask.getLsbD i <;> simp [inside]
    · simp [BitVec.getLsbD_of_ge _ _ outside]
  constructor
  · rintro rfl
    exact bits
  · exact fun h => BitVec.eq_of_getLsbD_eq fun i _ => (bits i).trans (h i).symm

/-! ### Expiry set, default record (R97, R98) -/

theorem State.lowestExpired_eq_some_iff {n : Slot} :
    s.lowestExpired party = some n ↔ (s.expired n = true ∧ (s.win n).owner = party) ∧
      ∀ m : Slot, m < n → s.expired m = true → (s.win m).owner ≠ party := by
  simp [State.lowestExpired, allSlots, finRange_find?_eq_some]

theorem State.lowestExpired_eq_none_iff :
    s.lowestExpired party = none ↔ ∀ n : Slot, s.expired n = true → (s.win n).owner ≠ party := by
  simp [State.lowestExpired, allSlots, List.find?_eq_none]

/-! ### States that a command does not act on (R76 to R79) -/

theorem Window.not_free_or_held {w : Window} (h : w.isFree = false ∨ w.owed ≠ none) :
    w.isFree = false ∨ w.isHeld = true := by
  cases free : w.isFree with
  | false => exact .inl rfl
  | true =>
    refine .inr ?_
    rw [free] at h
    simpa [Window.isHeld, free, Option.isSome_iff_ne_none] using h

theorem Window.not_live_of_free_or_staged {w : Window} (h : w.isFree = true ∨ w.isStaged = true) :
    w.isDraining = false ∧ w.isLive = false := by
  rw [Window.isFree_iff, Window.isStaged_iff] at h
  obtain state | ⟨target, state⟩ := h <;> simp [Window.isDraining, Window.isLive, state]

theorem Window.not_staged_or_live {w : Window} (h : w.isFree = true ∨ w.isDraining = true) :
    w.isStaged = false ∧ w.isLive = false := by
  rw [Window.isFree_iff, Window.isDraining_iff] at h
  obtain state | ⟨cause, age, state⟩ := h <;> simp [Window.isStaged, Window.isLive, state]

/-! ### The selector of [MOD] (R182) -/

theorem Command.selected_policy (h : (c.word 0).extractLsb' 0 2 = 0#2) : c.selected = some .policy := by
  simp [Command.selected, h]

theorem Command.selected_membership (h : (c.word 0).extractLsb' 0 2 = 1#2) : c.selected = some .membership := by
  simp [Command.selected, h]

theorem Command.selected_reserved (h : 2#2 ≤ (c.word 0).extractLsb' 0 2) : c.selected = none := by
  unfold Command.selected
  generalize (c.word 0).extractLsb' 0 2 = code at h
  revert code; decide

theorem slotBits_word (n : Slot) : (0#26 ++ slotBits n : Word) = BitVec.ofNat 32 n.val := by
  revert n; decide

theorem State.expired_of_table {t : State} (table : t.table = s.table) (n : Slot) : t.expired n = s.expired n := by
  unfold State.expired
  rw [table]

theorem State.win_of_table {t : State} (table : t.table = s.table) (n : Slot) : t.win n = s.win n := by
  unfold State.win
  rw [table]

/-! ### At the grant -/

/-- A granted command that its operation refuses. -/
theorem State.Granted.refused {sym : CommandSym} {operation : Party → Command → State → State × Option Response}
    {status : Status} (h : s.Granted party sym c)
    (hop : operation party c (s.grantTo (engineOf party)) = (s.grantTo (engineOf party)).refuse c status) :
    Refused party c status s (s.whilePowered (s.runGranted party sym operation)) :=
  State.Granted.readOperation s h hop

end
end Sys2Proof.Machine
end

section
open Sys2Proof Sys2Proof.Machine

/-- Settles O45: the checks of [STG] in the terms of R81 and R82, and the window it writes. -/
theorem stageWindow : Obligations.StageWindow := by
  intro s party c granted owner free unowed fields template target
  have slot : (s.grantTo (engineOf party)).Stageable party c.slot :=
    ⟨owner, free, (Window.isHeld_false_iff free).mpr unowed⟩
  have good : (s.grantTo (engineOf party)).targetGood party c.slot (suppliedTarget (c.word 0) (c.word 3)) = true := by
    cases h : suppliedTarget (c.word 0) (c.word 3) with
    | none => rfl
    | some t => exact State.targetGood_some_iff.mpr (target t ((suppliesTarget_iff _ _ _).mpr h))
  obtain ⟨only, operation⟩ := State.Granted.windowOperation s granted
    (stgOperation_staged slot ((stagedFieldsGood_iff ..).mpr fields) ((templateGood_iff ..).mpr template) good)
  exact ⟨_, _, rfl, stagedWindow_stagedAs .., only, operation⟩

/-- Settles O46: the three later checks of [STG] in their order, each in the terms of R81 and R82. -/
theorem stageRefused : Obligations.StageRefused := by
  intro s party c granted owner free unowed
  have slot : (s.grantTo (engineOf party)).Stageable party c.slot :=
    ⟨owner, free, (Window.isHeld_false_iff free).mpr unowed⟩
  refine ⟨_, rfl, fun fields => ?_, fun fields => ⟨fun template => ?_, fun template n supplied target => ?_⟩⟩
  · rw [← stagedFieldsGood_iff, Bool.not_eq_true] at fields
    exact granted.refused (stgOperation_badField slot fields)
  · rw [← stagedFieldsGood_iff] at fields
    rw [← templateGood_iff, Bool.not_eq_true] at template
    exact granted.refused (stgOperation_badTemplate slot fields template)
  · rw [← stagedFieldsGood_iff] at fields
    rw [← templateGood_iff] at template
    rw [suppliesTarget_iff] at supplied
    refine granted.refused (stgOperation_badSupersede slot fields template ?_)
    unfold Command.word
    rw [supplied, ← Bool.not_eq_true]
    exact fun good => target (State.targetGood_some_iff.mp good)

/-- Settles O47. -/
theorem abandonWindow : Obligations.AbandonWindow := by
  intro s party c granted owner staged
  obtain ⟨only, operation⟩ := State.Granted.windowOperation s granted (abnOperation_abandoned owner staged)
  exact ⟨_, rfl, only, operation⟩

/-- Settles O50. -/
theorem retireWindow : Obligations.RetireWindow := by
  intro s party c granted owner live
  obtain ⟨only, operation⟩ := State.Granted.windowOperation s granted (rtrOperation_retired owner live)
  exact ⟨_, _, rfl, only, Window.enterDrain_drained .., operation⟩

/-- Settles O51, by the reload action. -/
theorem renewLease : Obligations.RenewLease := by
  intro s party c granted owner live
  refine ⟨fun reload action => ?_, fun reserved => ?_⟩
  · have chosen : c.newReload (s.win c.slot).reload = some reload := by
      rcases action with ⟨keep, rfl⟩ | ⟨replace, rfl⟩
      · simp [Command.newReload, keep]
      · simp [Command.newReload, replace]
    obtain ⟨only, operation⟩ := State.Granted.windowOperation s granted
      (rnwOperation_renewed (s := s.grantTo (engineOf party)) owner live chosen)
    exact ⟨_, rfl, only, operation⟩
  · have none : c.newReload (s.win c.slot).reload = none := by
      unfold Command.newReload
      rw [if_neg (by rintro h; rw [h] at reserved; exact absurd reserved (by decide)),
        if_neg (by rintro h; rw [h] at reserved; exact absurd reserved (by decide))]
    exact ⟨_, rfl, granted.refused (rnwOperation_badField owner live none)⟩

/-- Settles O54. -/
theorem readExpired : Obligations.ReadExpired := by
  intro s party c granted
  refine ⟨fun n member owner lowest => ?_, fun none => ?_⟩
  · have found : (s.grantTo (engineOf party)).lowestExpired party = some n :=
      State.lowestExpired_eq_some_iff.mpr ⟨⟨member, owner⟩, lowest⟩
    have taken : rexOperation party c (s.grantTo (engineOf party)) =
        ((s.grantTo (engineOf party)).setExpired n false, some (c.replyWith .ok [BitVec.ofNat 32 n.val])) := by
      rw [rexOperation, found]
      exact congrArg (fun word => (_, some (c.replyWith .ok [word]))) (slotBits_word n)
    obtain ⟨operation, table⟩ := State.Granted.tableOperation s granted taken
    refine ⟨_, rfl, ?_⟩
    change State.table _ = (s.setExpired n false).table at table
    generalize s.whilePowered _ = t at operation table
    refine ⟨fun m => ?_, ?_, operation⟩
    · rw [State.expired_of_table table, State.setExpired_expired]
    · rw [table]
      rfl
  · refine ⟨_, rfl, granted.refused (operation := rexOperation) ?_⟩
    rw [rexOperation, (State.lowestExpired_eq_none_iff (s := s.grantTo (engineOf party))).mpr none]

/-- Settles O55, command by command: the owner check, and the state check behind it. -/
theorem ownerThenStateRefused : Obligations.OwnerThenStateRefused := by
  intro s party c
  refine ⟨?_, fun owner => ⟨fun granted taken => ?_, fun granted state => ?_, ?_, fun granted state => ?_⟩⟩
  · simp only [List.forall_mem_cons]
    exact ⟨fun granted other => ⟨_, rfl, granted.refused (stgOperation_otherOwner other)⟩,
      fun granted other => ⟨_, rfl, granted.refused (abnOperation_otherOwner other)⟩,
      fun granted other => ⟨_, rfl, granted.refused (rtrOperation_otherOwner other)⟩,
      fun granted other => ⟨_, rfl, granted.refused (rnwOperation_otherOwner other)⟩,
      fun granted other => ⟨_, rfl, granted.refused (modOperation_otherOwner other)⟩,
      fun _ mem => absurd mem List.not_mem_nil⟩
  · exact ⟨_, rfl, granted.refused (stgOperation_notFree owner (Window.not_free_or_held taken))⟩
  · exact ⟨_, rfl, granted.refused (abnOperation_notStaged owner state)⟩
  · simp only [List.forall_mem_cons]
    refine ⟨fun granted => ⟨fun draining => ?_, fun state => ?_⟩, fun granted => ⟨fun draining => ?_, fun state => ?_⟩,
      fun _ mem => absurd mem List.not_mem_nil⟩
    · exact ⟨_, rfl, granted.refused (rtrOperation_leaseGone owner draining)⟩
    · obtain ⟨notDraining, notLive⟩ := Window.not_live_of_free_or_staged state
      exact ⟨_, rfl, granted.refused (rtrOperation_notLive owner notDraining notLive)⟩
    · exact ⟨_, rfl, granted.refused (rnwOperation_leaseGone owner draining)⟩
    · obtain ⟨notDraining, notLive⟩ := Window.not_live_of_free_or_staged state
      exact ⟨_, rfl, granted.refused (rnwOperation_notLive owner notDraining notLive)⟩
  · exact ⟨_, rfl, granted.refused (modOperation_notStagedOrLive owner (Window.not_staged_or_live state))⟩

/-- Settles O52, by the selector: the word it names, and the test of the modified word. -/
theorem modifyWord : Obligations.ModifyWord := by
  intro s party c granted owner present
  have slot : (s.grantTo (engineOf party)).Modifiable party c.slot := ⟨owner, present⟩
  refine ⟨_, rfl, fun new selector masked => ?_, fun old new selector members rank accepted masked => ?_,
    fun reserved => ?_⟩
  · have selected := Command.selected_policy selector
    rw [← maskedWord_eq_iff] at masked
    refine ⟨(s.win c.slot).policy.word_holds, (s.win c.slot).policy.word_accepted, fun good => ?_, fun bad => ?_⟩
    · exact ⟨Policy.ofWord new, holdsPolicy_ofWord new, State.Granted.windowOperation s granted
        (modOperation_modified slot selected rfl masked ((policyWordGood_iff new).mpr good))⟩
    · rw [← policyWordGood_iff, Bool.not_eq_true] at bad
      exact (State.Granted.readOperation s granted (modOperation_refused slot selected rfl masked bad)).symm
  · have selected := Command.selected_membership selector
    rw [← maskedWord_eq_iff] at masked
    obtain ⟨members', rank', stray⟩ := (s.win c.slot).membershipWord_fields
    have read : (s.win c.slot).membershipWord = old :=
      membershipWord_ext (members'.trans members.symm) (rank'.trans rank.symm) (stray.trans accepted.symm)
    refine ⟨fun good => ?_, fun bad => ?_⟩
    · exact State.Granted.windowOperation s granted
        (modOperation_modified slot selected read masked ((membershipWordGood_iff new).mpr good))
    · rw [← membershipWordGood_iff, Bool.not_eq_true] at bad
      exact (State.Granted.readOperation s granted (modOperation_refused slot selected read masked bad)).symm
  · exact (State.Granted.readOperation s granted (modOperation_reserved slot (Command.selected_reserved reserved))).symm

end

section
/-!
Commit, query, the default record, the table mode, and the moves of slots, an equation per case (R85, R86, R96, R98, R99,
R162, R165).
-/
namespace Sys2Proof.Machine
section
variable {s : State} {party : Party} {c : Command}

/-! ### Commit (R85, R86) -/

theorem State.stagedBy_iff {n : Slot} :
    s.stagedBy party n = true ↔ (s.win n).isStaged = true ∧ (s.win n).owner = party := by
  simp [State.stagedBy]

/-- The STAGED window n of the party names target t. -/
def State.Names (s : State) (party : Party) (n t : Slot) : Prop :=
  (s.win n).state = .staged (some t) ∧ (s.win n).owner = party

theorem State.names_iff {n t : Slot} :
    s.Names party n t ↔ s.stagedBy party n = true ∧ (s.win n).target = some t := by
  rw [State.Names, State.stagedBy_iff, Window.target_eq_some_iff, Window.isStaged_iff]
  constructor
  · rintro ⟨state, owner⟩
    exact ⟨⟨⟨_, state⟩, owner⟩, state⟩
  · rintro ⟨⟨-, owner⟩, state⟩
    exact ⟨state, owner⟩

theorem State.namedBy_iff {t : Slot} : s.namedBy party t = true ↔ ∃ n, s.Names party n t := by
  simp [State.namedBy, allSlots, State.names_iff]

/-- A staged slot fails the test when it names a target that is not LIVE or not the party's (R85). -/
theorem State.targetFails_iff {n : Slot} :
    s.targetFails party n = true ↔
      ∃ t, s.Names party n t ∧ ¬ ((s.win t).state = .live ∧ (s.win t).owner = party) := by
  simp only [State.names_iff, ← Window.isLive_iff]
  unfold State.targetFails
  cases (s.win n).target with
  | none => simp
  | some t => simp [imp_iff_not_or]

theorem State.failingStaged_eq_none (passes : ∀ n, s.targetFails party n = false) : s.failingStaged party = none := by
  have nothing : allSlots.find? (s.targetFails party) = none := List.find?_eq_none.mpr fun n _ => by simp [passes n]
  rw [State.failingStaged, nothing]
  rfl

theorem State.failingStaged_eq_some {n t : Slot} (fails : s.targetFails party n = true)
    (lowest : ∀ m, m < n → s.targetFails party m = false) (target : (s.win n).target = some t) :
    s.failingStaged party = some (n, t) := by
  have found : allSlots.find? (s.targetFails party) = some n := finRange_find?_eq_some.mpr ⟨fails, lowest⟩
  simp only [State.failingStaged, found, Option.bind_some, target, Option.map_some]

theorem targetWord_eq (n t : Slot) :
    (0#18 ++ slotBits t ++ 0#2 ++ slotBits n : Word) = BitVec.ofNat 32 (t.val * 256 + n.val) := by
  have target : (slotBits t).toNat = t.val := Nat.mod_eq_of_lt t.isLt
  have slot : (slotBits n).toNat = n.val := Nat.mod_eq_of_lt n.isLt
  apply BitVec.eq_of_toNat_eq
  rw [BitVec.toNat_append, BitVec.toNat_append, BitVec.toNat_append, target, slot,
    ← Nat.shiftLeft_add_eq_or_of_lt n.isLt]
  simp [Nat.shiftLeft_eq]
  omega

theorem cmtOperation_refused {n t : Slot} (failing : s.failingStaged party = some (n, t)) :
    cmtOperation party c s = (s, some (c.replyWith .badSupersede [BitVec.ofNat 32 (t.val * 256 + n.val)])) := by
  rw [cmtOperation, failing, ← targetWord_eq]

theorem cmtOperation_committed (passes : s.failingStaged party = none) :
    cmtOperation party c s =
      (s.mapWindows (s.committed party), some (c.replyWith .ok [BitVec.ofNat 32 (s.stagedCount party)])) := by
  rw [cmtOperation, passes]

theorem KeepsTableItems.of_table {t u : State} (h : KeepsTableItems s u) (table : t.table = u.table) :
    KeepsTableItems s t := by
  unfold KeepsTableItems
  rw [table]
  exact h

/-! ### Supervisor commands (R98, R99) -/

/-- A supervisor command in hand runs as any other granted command. -/
theorem State.Granted.runSupervisor {sym : CommandSym} {operation : Party → Command → State → State × Option Response}
    (h : s.Granted .host sym c) :
    s.whilePowered (s.runSupervisor sym operation) = s.whilePowered (s.runGranted .host sym operation) :=
  (s.runSupervisor_granted sym c operation h).trans (s.runGranted_granted .host sym c operation h).symm

/-! ### Ownership (R162, R165) -/

theorem State.ownerWord_bit (first k : Nat) (inside : k < 32) :
    (s.ownerWord first).getLsbD k = ((s.win (Fin.ofNat 64 (first + k))).owner == .host) := by
  rw [State.ownerWord, BitVec.getLsbD_ofFnLE, dif_pos inside]

theorem Window.moves_iff {w : Window} {giver : Party} {first last n : Slot} :
    w.moves giver first last n = true ↔
      first ≤ n ∧ n ≤ last ∧ w.isFree = true ∧ w.owed = none ∧ w.owner = giver := by
  simp only [Window.moves, Bool.and_eq_true, decide_eq_true_eq, Bool.not_eq_true', beq_iff_eq, and_assoc]
  refine and_congr_right fun _ => and_congr_right fun _ => and_congr_right fun free => and_congr_left fun _ => ?_
  exact Window.isHeld_false_iff free

/-- The slots that move (R162). -/
def State.movedSlots (s : State) (giver : Party) (first last : Slot) : List Slot :=
  allSlots.filter fun n => (s.win n).moves giver first last n

theorem State.mem_movedSlots {giver : Party} {first last n : Slot} :
    n ∈ s.movedSlots giver first last ↔
      first ≤ n ∧ n ≤ last ∧ (s.win n).isFree = true ∧ (s.win n).owed = none ∧ (s.win n).owner = giver := by
  simp [State.movedSlots, allSlots, Window.moves_iff]

theorem State.moveCount_eq {giver : Party} {first last : Slot} :
    s.moveCount giver first last = (s.movedSlots giver first last).length :=
  List.countP_eq_length_filter

theorem slotField_eq {w : Nat} {word : BitVec w} {lo : Nat} {n : Slot} (h : n.val = (word.extractLsb' lo 6).toNat) :
    slotField word lo = n := by
  ext
  have bound := (word.extractLsb' lo 6).isLt
  simp only [slotField, Fin.ofNat, ← h]
  omega

/-- A move changes the owner of the slots that move, and raises OWNERSHIP when one does (R162, R164). -/
theorem moveOperation_moved {giver receiver : Party} (order : ¬ c.lastSlot < c.slot) :
    moveOperation giver receiver c s =
      (State.mapWindows
        { s with host := { s.host with
            ownership := if s.movedSlots giver c.slot c.lastSlot = [] then s.host.ownership else true } }
        fun n w => if w.moves giver c.slot c.lastSlot n then { w with owner := receiver } else w,
        some (c.replyWith .ok [BitVec.ofNat 32 (s.movedSlots giver c.slot c.lastSlot).length])) := by
  rw [moveOperation, if_neg order, State.moveCount_eq]
  cases s.movedSlots giver c.slot c.lastSlot <;> rfl

/-- What [GRT] and [RCL] do at their grant (R162, R164). -/
theorem State.Granted.moves {sym : CommandSym} {giver receiver : Party} {first last : Slot}
    {operation : Party → Command → State → State × Option Response}
    (is : operation = fun _ c s => moveOperation giver receiver c s) (granted : s.Granted .maint sym c)
    (isFirst : first.val = (c.operand.extractLsb' 0 6).toNat) (isLast : last.val = (c.operand.extractLsb' 8 6).toNat) :
    let t := s.whilePowered (s.runGranted .maint sym operation)
    (last < first → Refused .maint c .badField s t) ∧
    (first ≤ last →
      (∀ n, t.win n = if n ∈ s.movedSlots giver first last then { s.win n with owner := receiver } else s.win n) ∧
      KeepsTableItems s t ∧
      TableOperation .maint (some ⟨c.tag, .ok, [BitVec.ofNat 32 (s.movedSlots giver first last).length]⟩)
        { s with host := { s.host with
          ownership := if s.movedSlots giver first last = [] then s.host.ownership else true } } t) := by
  have isFirst : c.slot = first := slotField_eq isFirst
  have isLast : c.lastSlot = last := slotField_eq isLast
  subst is isFirst isLast
  intro t
  refine ⟨fun disorder => ?_, fun order => ?_⟩
  · exact granted.refused (if_pos disorder)
  · let raised : State := { s with host := { s.host with
      ownership := if s.movedSlots giver c.slot c.lastSlot = [] then s.host.ownership else true } }
    let moved := raised.mapWindows fun n w => if w.moves giver c.slot c.lastSlot n then { w with owner := receiver } else w
    obtain ⟨operation, table⟩ := raised.finishCommand_operation .maint
      (some ⟨c.tag, .ok, [BitVec.ofNat 32 (s.movedSlots giver c.slot c.lastSlot).length]⟩) moved.table
      (fun _ => State.Granted.maint_room s .maint sym c granted rfl)
    have run : t = State.finishCommand { raised.grantTo (engineOf .maint) with table := moved.table } .maint
        (some ⟨c.tag, .ok, [BitVec.ofNat 32 (s.movedSlots giver c.slot c.lastSlot).length]⟩) := by
      refine (s.runGranted_granted .maint sym c _ granted).trans ?_
      rw [moveOperation_moved (s := s.grantTo (engineOf .maint)) (not_lt.mpr order)]
      rfl
    rw [← run] at operation table
    refine ⟨fun n => ?_, KeepsTableItems.of_table (raised.mapWindows_only _).items table, operation⟩
    rw [State.win_of_table table, State.mapWindows_win]
    simp only [State.mem_movedSlots, ← Window.moves_iff]
    rfl

end
end Sys2Proof.Machine
end

section
open Sys2Proof Sys2Proof.Machine

/-- Settles O48: no target fails, so every window becomes what a commit makes of it. -/
theorem commitWindows : Obligations.CommitWindows := by
  intro s party c granted good
  have passes : (s.grantTo (engineOf party)).failingStaged party = none := by
    refine State.failingStaged_eq_none fun n => ?_
    rw [← Bool.not_eq_true, State.targetFails_iff]
    rintro ⟨t, ⟨state, owner⟩, fails⟩
    exact fails (good n t state owner)
  obtain ⟨operation, table⟩ := State.Granted.tableOperation s granted (cmtOperation_committed passes)
  refine ⟨_, rfl, ?_⟩
  generalize s.whilePowered _ = t at operation table
  change t.table = (s.mapWindows (s.committed party)).table at table
  have win : ∀ n, t.win n = s.committed party n (s.win n) := fun n => by
    rw [State.win_of_table table, State.mapWindows_win]
  refine ⟨(s.mapWindows_only _).items.of_table table, fun n => ⟨fun staged owner => ?_, ?_, ?_⟩,
    operation⟩
  · rw [win, State.committed, if_pos (State.stagedBy_iff.mpr ⟨staged, owner⟩)]
    rfl
  · rintro ⟨m, state, owner⟩
    have live := (good m n state owner).1
    have unstaged : s.stagedBy party n = false := by simp [State.stagedBy, Window.isStaged, live]
    rw [win, State.committed, if_neg (by simp [unstaged]), if_pos (State.namedBy_iff.mpr ⟨m, state, owner⟩)]
    exact Window.enterDrain_drained ..
  · intro unstaged unnamed
    rw [win, State.committed, if_neg (unstaged ∘ State.stagedBy_iff.mp), if_neg (unnamed ∘ State.namedBy_iff.mp)]

/-- Settles O49. -/
theorem commitRefused : Obligations.CommitRefused := by
  intro s party c n t granted state owner fails lowest
  have failing : (s.grantTo (engineOf party)).failingStaged party = some (n, t) := by
    refine State.failingStaged_eq_some (State.targetFails_iff.mpr ⟨t, ⟨state, owner⟩, fails⟩) (fun m below => ?_)
      (Window.target_eq_some_iff.mpr state)
    rw [← Bool.not_eq_true, State.targetFails_iff]
    rintro ⟨u, ⟨state, owner⟩, fails⟩
    exact fails (lowest m u below state owner)
  exact ⟨_, rfl, (State.Granted.readOperation s granted (cmtOperation_refused failing)).symm⟩

/-- Settles O53: the four words are the record in the reported form, and the two words hold a bit for each slot. -/
theorem queryAndOwnershipReport : Obligations.QueryAndOwnershipReport := by
  refine ⟨fun s party c granted => ?_, fun s c granted => ?_⟩
  · obtain ⟨operation, table⟩ := State.Granted.readOperation s granted (operation := qryOperation) rfl
    exact ⟨_, _, _, _, _, rfl, table, (s.win c.slot).reportedIn _, operation⟩
  · obtain ⟨operation, table⟩ := State.Granted.readOperation s granted (operation := ownOperation) rfl
    refine ⟨_, _, _, rfl, table, fun n => ?_, operation⟩
    split
    · next low =>
      rw [State.ownerWord_bit 0 n.val low, beq_iff_eq, Nat.zero_add, Fin.ofNat_val_eq_self]
      rfl
    · next high =>
      rw [State.ownerWord_bit 32 (n.val - 32) (by omega), beq_iff_eq, Nat.add_sub_cancel' (Nat.not_lt.mp high),
        Fin.ofNat_val_eq_self]
      rfl

/-- Settles O60: the range, the slots that move, and their new owner. -/
theorem slotsMove : Obligations.SlotsMove := by
  intro s c
  simp only [List.forall_mem_cons]
  refine ⟨fun granted first last isFirst isLast => ?_, fun granted first last isFirst isLast => ?_,
    fun _ mem => absurd mem List.not_mem_nil⟩
  · obtain ⟨refused, moves⟩ := granted.moves (operation := grtOperation) rfl isFirst isLast
    refine ⟨fun disorder => ⟨_, rfl, refused disorder⟩, fun order => ?_⟩
    obtain ⟨win, items, operation⟩ := moves order
    exact ⟨_, _, rfl, (List.nodup_finRange 64).filter _, fun n => State.mem_movedSlots, win, items, operation⟩
  · obtain ⟨refused, moves⟩ := granted.moves (operation := rclOperation) rfl isFirst isLast
    refine ⟨fun disorder => ⟨_, rfl, refused disorder⟩, fun order => ?_⟩
    obtain ⟨win, items, operation⟩ := moves order
    exact ⟨_, _, rfl, (List.nodup_finRange 64).filter _, fun n => State.mem_movedSlots, win, items, operation⟩

/-- Settles O56, command by command. -/
theorem defaultRecordAndTableMode : Obligations.DefaultRecordAndTableMode := by
  intro s c
  refine ⟨fun granted => ⟨fun accepted => ?_, fun refused => ?_⟩, fun granted => ?_, fun granted => ?_⟩
  · have set : sdfOperation .host c (s.grantTo .host) =
        ((s.grantTo .host).setDefault (Policy.ofWord (c.word 0)), some (c.replyWith .ok [s.table.defaultRecord.word])) :=
      if_pos ((policyWordGood_iff _).mpr accepted)
    obtain ⟨operation, table⟩ := State.Granted.tableOperation s granted set
    rw [← granted.runSupervisor] at operation table
    exact ⟨_, Policy.ofWord (c.word 0), s.table.defaultRecord.word, rfl, holdsPolicy_ofWord _, table,
      s.table.defaultRecord.word_holds, s.table.defaultRecord.word_accepted, operation⟩
  · rw [← policyWordGood_iff] at refused
    have kept : sdfOperation .host c (s.grantTo .host) = (s.grantTo .host).refuse c .badField := if_neg refused
    refine ⟨_, rfl, ?_⟩
    rw [granted.runSupervisor]
    exact granted.refused kept
  · obtain ⟨operation, table⟩ := State.Granted.tableOperation s granted (operation := tenOperation) rfl
    rw [← granted.runSupervisor] at operation table
    exact ⟨_, rfl, table, operation⟩
  · let marked : State := { s with sweep := { s.sweep with walk := s.sweep.walk.marked } }
    obtain ⟨operation, table⟩ := marked.finishCommand_operation .host (some (c.reply .ok)) (s.setMode .boot).table nofun
    have run : s.whilePowered (s.runSupervisor .tds tdsOperation) =
        State.finishCommand { marked.grantTo (engineOf .host) with table := (s.setMode .boot).table } .host (some (c.reply .ok)) :=
      s.runSupervisor_granted .tds c tdsOperation granted
    rw [← run] at operation table
    exact ⟨_, rfl, table, operation⟩

end

section
/-!
A granted lookup (R36 to R43): the ruling, and what a ruling carried out leaves of the part.
-/
namespace Sys2Proof.Machine

/-- A violation handed over, or none: the records stay (R43, R176). -/
def HandsOver (e : QueueEntry) (violation : Option ViolationSource) (outcome : ViolationOutcome) (s t : State) : Prop :=
  match violation with
  | none => t.violations = s.violations
  | some source => ViolationHanded e source outcome s t

section
variable {s t : State} {e : QueueEntry}

theorem State.handsOver_recordAny {violation : Option ViolationSource} {outcome : ViolationOutcome}
    (h : t.violations = (s.recordAny e violation outcome).violations) : HandsOver e violation outcome s t := by
  cases violation with
  | none => exact h
  | some source =>
    intro r
    have record : t.violation r = (s.recordViolation e source outcome).violation r := by
      unfold State.violation
      rw [h]
      rfl
    rw [record, State.recordViolation, State.setViolation_violation]
    by_cases same : r = e.requester
    · subst same
      simp only [if_true]
      cases s.violation e.requester <;> rfl
    · simp only [same, if_false]

/-! ### Free tickets (R55) -/

theorem State.freeTicket_eq_some_iff {k : TicketNo} : s.freeTicket = some k ↔ s.LowestFree k := by
  unfold State.freeTicket allTickets State.LowestFree
  rw [finRange_find?_eq_some]
  simp

theorem State.freeTicket_eq_none (h : ∀ k, s.ticket k ≠ .free) : s.freeTicket = none :=
  List.find?_eq_none.mpr fun k _ => by simp [h k]

theorem State.ticketGiven_allocate {k : TicketNo} {r : Requester} {n : Slot}
    (h : t.pool = (s.allocate k r n).pool) : TicketGiven k r n s t := by
  have ticket : ∀ j, t.ticket j = (s.allocate k r n).ticket j := fun j => by unfold State.ticket; rw [h]
  have use : ∀ m, t.use m = (s.allocate k r n).use m := fun m => by unfold State.use; rw [h]
  exact ⟨fun j => by rw [ticket]; simp [State.allocate], fun m => by rw [use]; simp [State.allocate]⟩

/-! ### Carrying out a ruling (R42, R43) -/

theorem State.LookupGranted.exec (h : s.LookupGranted e) : exec .lookup s = .next (s.decideLookup e) := by
  obtain ⟨powered, head, granted⟩ := h
  obtain ⟨rest, queue⟩ := List.head?_eq_some_iff.mp head
  have run : s.runLookup = s.decideLookup e := by
    rw [State.runLookup, queue]
    simp [granted]
  change Host.Outcome.next (s.whilePowered s.runLookup) = _
  rw [s.whilePowered_powered _ powered, run]

/-- A ruling carried out gives the head entry its answer, and leaves violations and pool as it has left them. -/
theorem State.decideLookup_placed {answer : Answer} {violations : Vector (Option Violation) 16} {pool : TicketPool}
    (placed : (s.grantTo .lookup).carryOut e (s.ruling e) =
      State.placeVerdict { s.grantTo .lookup with violations := violations, pool := pool } e answer) :
    LookupAnswers e answer s (s.decideLookup e) ∧ (s.decideLookup e).violations = violations ∧
      (s.decideLookup e).pool = pool := by
  have decided : s.decideLookup e =
      (State.placeVerdict { s.grantTo .lookup with violations := violations, pool := pool } e answer).release :=
    congrArg State.release placed
  rw [decided]
  exact ⟨⟨rfl, by simp [State.hostWaitAtGrant, Config.ageLimit], rfl, rfl⟩, rfl, rfl⟩

theorem State.recordAny_eq (violation : Option ViolationSource) (outcome : ViolationOutcome) :
    s.recordAny e violation outcome = { s with violations := (s.recordAny e violation outcome).violations } := by
  cases violation <;> rfl

/-- A denial takes no ticket (R43). -/
theorem State.decideLookup_denied {reason : DenyReason} {source : Option Source} {violation : Option ViolationSource}
    (ruling : s.ruling e = .deny reason source violation) :
    LookupAnswers e (.deny reason source) s (s.decideLookup e) ∧ (s.decideLookup e).pool = s.pool ∧
      HandsOver e violation .denied s (s.decideLookup e) := by
  have placed : (s.grantTo .lookup).carryOut e (s.ruling e) = State.placeVerdict { s.grantTo .lookup with
      violations := (s.recordAny e violation .denied).violations, pool := s.pool } e (.deny reason source) := by
    rw [ruling, State.carryOut, State.recordAny_eq]
    cases violation <;> rfl
  obtain ⟨answers, violations, pool⟩ := State.decideLookup_placed placed
  exact ⟨answers, pool, State.handsOver_recordAny violations⟩

/-- A permission by a record that is not a window takes no ticket (R41, R43). -/
theorem State.decideLookup_unticketed {watched : Option ViolationSource} {source : Source} {attrs : Attributes}
    (ruling : s.ruling e = .permit watched source attrs) (unticketed : ∀ n, source ≠ .slot n) :
    LookupAnswers e (permission watched.isSome source none attrs) s (s.decideLookup e) ∧
      (s.decideLookup e).pool = s.pool ∧ HandsOver e watched .watched s (s.decideLookup e) := by
  have placed : (s.grantTo .lookup).carryOut e (s.ruling e) = State.placeVerdict { s.grantTo .lookup with
      violations := (s.recordAny e watched .watched).violations, pool := s.pool } e
        (permission watched.isSome source none attrs) := by
    rw [ruling]
    cases source with
    | slot n => exact absurd rfl (unticketed n)
    | defaultRecord => rw [State.carryOut, State.recordAny_eq]; cases watched <;> rfl
    | boot => rw [State.carryOut, State.recordAny_eq]; cases watched <;> rfl
  obtain ⟨answers, violations, pool⟩ := State.decideLookup_placed placed
  exact ⟨answers, pool, State.handsOver_recordAny violations⟩

/-- A window's permission takes the lowest free ticket (R42, R55). -/
theorem State.decideLookup_ticketed {watched : Option ViolationSource} {n : Slot} {attrs : Attributes}
    (ruling : s.ruling e = .permit watched (.slot n) attrs) {k : TicketNo} (free : s.LowestFree k) :
    LookupAnswers e (permission watched.isSome (.slot n) (some k) attrs) s (s.decideLookup e) ∧
      TicketGiven k e.requester n s (s.decideLookup e) ∧ HandsOver e watched .watched s (s.decideLookup e) := by
  have found : (s.grantTo .lookup).freeTicket = some k := State.freeTicket_eq_some_iff.mpr free
  have placed : (s.grantTo .lookup).carryOut e (s.ruling e) = State.placeVerdict { s.grantTo .lookup with
      violations := (s.recordAny e watched .watched).violations, pool := (s.allocate k e.requester n).pool } e
        (permission watched.isSome (.slot n) (some k) attrs) := by
    rw [ruling]
    simp only [State.carryOut, found]
    rw [State.recordAny_eq]
    cases watched <;> rfl
  obtain ⟨answers, violations, pool⟩ := State.decideLookup_placed placed
  exact ⟨answers, State.ticketGiven_allocate pool, State.handsOver_recordAny violations⟩

/-- Without a free ticket a window's permission is RETRY, which records nothing (R42). -/
theorem State.decideLookup_retry {watched : Option ViolationSource} {n : Slot} {attrs : Attributes}
    (ruling : s.ruling e = .permit watched (.slot n) attrs) (none : ∀ k, s.ticket k ≠ .free) :
    LookupAnswers e .retry s (s.decideLookup e) ∧ (s.decideLookup e).pool = s.pool ∧
      (s.decideLookup e).violations = s.violations := by
  have found : (s.grantTo .lookup).freeTicket = Option.none := State.freeTicket_eq_none none
  have placed : (s.grantTo .lookup).carryOut e (s.ruling e) = State.placeVerdict { s.grantTo .lookup with
      violations := s.violations, pool := s.pool } e .retry := by
    rw [ruling]
    simp only [State.carryOut, found]
    rfl
  obtain ⟨answers, violations, pool⟩ := State.decideLookup_placed placed
  exact ⟨answers, pool, violations⟩

/-! ### The ruling (R36 to R41) -/

theorem State.ruling_disabled (disabled : (s.profile e.requester).enabled = false) :
    s.ruling e = .deny .profile none none := by
  simp [State.ruling, disabled]

theorem State.ruling_span (enabled : (s.profile e.requester).enabled = true) (across : ¬ e.onOnePage) :
    s.ruling e = .deny .span (some (s.spanSource e)) (some .span) := by
  have pages : (pageOf e.address != pageOf (lastByte e.address e.lengthCode)) = true :=
    bne_iff_ne.mpr fun same => across same.symm
  simp [State.ruling, enabled, pages]

theorem QueueEntry.onOnePage_test (inside : e.onOnePage) :
    (pageOf e.address != pageOf (lastByte e.address e.lengthCode)) = false :=
  bne_eq_false_iff_eq.mpr inside.symm

theorem State.ruling_boot (enabled : (s.profile e.requester).enabled = true) (inside : e.onOnePage)
    (mode : s.table.mode = .boot) : s.ruling e = .permit none .boot s.table.bootRecord.attrs := by
  simp [State.ruling, enabled, e.onOnePage_test inside, mode]

theorem State.ruling_window (enabled : (s.profile e.requester).enabled = true) (inside : e.onOnePage)
    (mode : s.table.mode = .active) {n : Slot} (wins : s.Wins (pageOf e.address) e.requester n) :
    s.ruling e =
      (s.win n).policy.rule (s.profile e.requester).privilege e.kind (.slot n) (.slot n) .rights := by
  simp [State.ruling, enabled, e.onOnePage_test inside, mode, (s.winner_eq_some_iff _ _ n).mpr wins]

theorem State.winner_eq_none (h : ∀ n, s.matchesAt (pageOf e.address) e.requester n = false) :
    s.winner (pageOf e.address) e.requester = none := (s.winner_eq_none_iff _ _).mpr h

theorem State.ruling_default (enabled : (s.profile e.requester).enabled = true) (inside : e.onOnePage)
    (mode : s.table.mode = .active) (unmatched : ∀ n, s.matchesAt (pageOf e.address) e.requester n = false) :
    s.ruling e =
      s.table.defaultRecord.rule (s.profile e.requester).privilege e.kind .defaultRecord .defaultRecord .miss := by
  simp [State.ruling, enabled, e.onOnePage_test inside, mode, State.winner_eq_none unmatched]

/-! ### Rights and mode (R41) -/

theorem Policy.rule_permitted {p : Policy} {privilege : Privilege} {kind : AccessKind} {source : Source}
    {violation : ViolationSource} {reason : DenyReason} (permitted : p.permits privilege kind = true) :
    p.rule privilege kind source violation reason = .permit none source p.attrs := if_pos permitted

theorem Policy.rule_enforced {p : Policy} {privilege : Privilege} {kind : AccessKind} {source : Source}
    {violation : ViolationSource} {reason : DenyReason} (outside : ¬ p.permits privilege kind = true)
    (mode : p.mode = .enforce) :
    p.rule privilege kind source violation reason = .deny reason (some source) (some violation) := by
  rw [Policy.rule, if_neg outside, mode]

theorem Policy.rule_watched {p : Policy} {privilege : Privilege} {kind : AccessKind} {source : Source}
    {violation : ViolationSource} {reason : DenyReason} (outside : ¬ p.permits privilege kind = true)
    (mode : p.mode = .watch) :
    p.rule privilege kind source violation reason = .permit (some violation) source p.attrs := by
  rw [Policy.rule, if_neg outside, mode]

end
end Sys2Proof.Machine
end

section
open Sys2Proof Sys2Proof.Machine

/-- Settles O18, by the step of the decision that settles the lookup. -/
theorem lookupSettledBeforeTheWindows : Obligations.LookupSettledBeforeTheWindows := by
  intro s e granted
  refine ⟨fun disabled => ?_, fun enabled across source inBoot inActive => ?_, fun enabled inside boot => ?_⟩
  · obtain ⟨answers, pool, violations⟩ := State.decideLookup_denied (State.ruling_disabled disabled)
    exact ⟨_, granted.exec, answers, pool, violations⟩
  · have covers : s.spanSource e = source := by
      unfold State.spanSource
      cases mode : s.table.mode with
      | boot => exact (inBoot mode).symm
      | active =>
        have wins := inActive mode
        cases source with
        | slot n => simp only [(s.winner_eq_some_iff _ _ n).mpr wins]
        | defaultRecord => simp only [State.winner_eq_none wins]
        | boot => exact wins.elim
    obtain ⟨answers, pool, violations⟩ := State.decideLookup_denied (State.ruling_span enabled across)
    rw [covers] at answers
    exact ⟨_, granted.exec, answers, pool, violations⟩
  · obtain ⟨answers, pool, violations⟩ := State.decideLookup_unticketed (State.ruling_boot enabled inside boot) nofun
    exact ⟨_, granted.exec, answers, pool, violations⟩

/-- Settles O19: the winning window's rights and mode make the ruling. -/
theorem lookupUnderWindow : Obligations.LookupUnderWindow := by
  intro s e n granted enabled inside active wins
  have ruling := State.ruling_window enabled inside active wins
  refine ⟨_, granted.exec, ?_⟩
  split
  · next permitted =>
    rw [Policy.rule_permitted permitted] at ruling
    exact ⟨fun k free => State.decideLookup_ticketed ruling free, State.decideLookup_retry ruling⟩
  · next outside =>
    split
    · next mode => exact State.decideLookup_denied (ruling.trans (Policy.rule_enforced outside mode))
    · next mode =>
      rw [Policy.rule_watched outside mode] at ruling
      exact ⟨fun k free => State.decideLookup_ticketed ruling free, State.decideLookup_retry ruling⟩

/-- Settles O20: the default record's rights and mode make the ruling. -/
theorem lookupUnderDefaultRecord : Obligations.LookupUnderDefaultRecord := by
  intro s e granted enabled inside active unmatched
  have ruling := State.ruling_default enabled inside active unmatched
  refine ⟨_, granted.exec, ?_⟩
  split
  · next permitted =>
    rw [Policy.rule_permitted permitted] at ruling
    obtain ⟨answers, pool, violations⟩ := State.decideLookup_unticketed ruling nofun
    exact ⟨pool, answers, violations⟩
  · next outside =>
    split
    · next mode =>
      rw [Policy.rule_enforced outside mode] at ruling
      obtain ⟨answers, pool, violations⟩ := State.decideLookup_denied ruling
      exact ⟨pool, answers, violations⟩
    · next mode =>
      rw [Policy.rule_watched outside mode] at ruling
      obtain ⟨answers, pool, violations⟩ := State.decideLookup_unticketed ruling nofun
      exact ⟨pool, answers, violations⟩

end

section
/-!
The Lease Timer's ticks and the Sweep Engine's visits, an equation per case (R101, R107, R108, R111 to R114), and the
ending of a drain beside the responses that wait (R22, R63).
-/
namespace Sys2Proof.Machine
section
variable {s t : State} {n : Slot}

/-! ### Ticks (R101) -/

theorem State.tick_of_no_count (h : s.timer.state = .stopped ∨ s.timer.prescale = .off) : s.tick = s := by
  unfold State.tick
  obtain state | prescale := h
  · rw [state]
  · rw [prescale]
    cases s.timer.state <;> rfl

theorem State.elapsePeriod_of_no_count (h : s.timer.state = .stopped ∨ s.timer.prescale = .off) :
    s.elapsePeriod = s := by
  unfold State.elapsePeriod
  obtain state | prescale := h
  · rw [state]
  · rw [prescale]
    cases s.timer.state <;> rfl

theorem State.tick_prescales {ticks : Nat} (state : s.timer.state = .running)
    (prescale : s.timer.prescale.ticks = some ticks) (part : s.timer.prescaleCount + 1 < ticks) :
    s.tick = { s with timer := { s.timer with prescaleCount := s.timer.prescaleCount + 1 } } := by
  simp only [State.tick, state, prescale, if_neg (Nat.not_le.mpr part)]

theorem State.tick_counts {ticks : Nat} (state : s.timer.state = .running)
    (prescale : s.timer.prescale.ticks = some ticks) (whole : ticks ≤ s.timer.prescaleCount + 1)
    (part : s.timer.counter + 1 < s.timer.period) :
    s.tick = { s with timer := { s.timer with prescaleCount := 0, counter := s.timer.counter + 1 } } := by
  simp only [State.tick, state, prescale, if_pos whole, State.count, if_neg (Nat.not_le.mpr part)]

theorem State.tick_requests {ticks : Nat} (state : s.timer.state = .running)
    (prescale : s.timer.prescale.ticks = some ticks) (whole : ticks ≤ s.timer.prescaleCount + 1)
    (period : s.timer.period ≤ s.timer.counter + 1) :
    s.tick = State.sweepRequested { s with timer := { s.timer with prescaleCount := 0, counter := 0 } } := by
  simp only [State.tick, state, prescale, if_pos whole, State.count, if_pos period]

theorem State.elapsePeriod_requests {ticks : Nat} (state : s.timer.state = .running)
    (prescale : s.timer.prescale.ticks = some ticks) :
    s.elapsePeriod = State.sweepRequested { s with timer := { s.timer with prescaleCount := 0, counter := 0 } } := by
  simp only [State.elapsePeriod, state, prescale]

/-- The ticks that a period still takes lead to its sweep request (R101): one tick takes the first of them, and either
it is the last, or the rest follows from the state it leaves. -/
theorem State.tick_iterate (ticks : Nat) : ∀ (left : Nat) (s : State), s.timer.state = .running →
    s.timer.prescale.ticks = some ticks → s.timer.prescaleCount < ticks → s.timer.counter < s.timer.period →
    ticks * s.timer.period = ticks * s.timer.counter + s.timer.prescaleCount + (left + 1) →
    State.tick^[left + 1] s =
      State.sweepRequested { s with timer := { s.timer with prescaleCount := 0, counter := 0 } } := by
  intro left
  induction left with
  | zero =>
    intro s state prescale part counter total
    have next : ticks * (s.timer.counter + 1) ≤ ticks * s.timer.period := Nat.mul_le_mul_left ticks counter
    rw [Nat.mul_succ] at next
    refine State.tick_requests state prescale (by omega) (Nat.le_of_not_lt fun more => ?_)
    have later : ticks * (s.timer.counter + 2) ≤ ticks * s.timer.period := Nat.mul_le_mul_left ticks more
    rw [Nat.mul_succ, Nat.mul_succ] at later
    omega
  | succ left ih =>
    intro s state prescale part counter total
    rw [Function.iterate_succ_apply]
    rcases Nat.lt_or_ge (s.timer.prescaleCount + 1) ticks with more | whole
    · rw [State.tick_prescales state prescale more]
      exact ih { s with timer := { s.timer with prescaleCount := s.timer.prescaleCount + 1 } } state prescale more counter
        (by dsimp only; omega)
    · rcases Nat.lt_or_ge (s.timer.counter + 1) s.timer.period with more | period
      · rw [State.tick_counts state prescale whole more]
        refine ih { s with timer := { s.timer with prescaleCount := 0, counter := s.timer.counter + 1 } } state prescale
          (by dsimp only; omega) more ?_
        dsimp only
        rw [Nat.mul_succ]
        omega
      · have last : s.timer.period = s.timer.counter + 1 := by omega
        rw [last, Nat.mul_succ] at total
        omega

/-! ### Visits (R111 to R114) -/

theorem State.visitSlot_fresh (live : (s.win n).state = .live) (leased : (s.win n).reload ≠ 0#8)
    (fresh : (s.win n).fresh = true) : s.visitSlot n = s.setWin n { s.win n with fresh := false } := by
  simp only [State.visitSlot, live, State.visitLive, if_neg leased, fresh, if_true]

theorem State.visitSlot_ages (live : (s.win n).state = .live) (leased : (s.win n).reload ≠ 0#8)
    (aged : (s.win n).fresh = false) (more : 1#8 < (s.win n).remaining) :
    s.visitSlot n = s.setWin n { s.win n with remaining := (s.win n).remaining - 1#8 } := by
  have notLast : ¬ (s.win n).remaining ≤ 1#8 := by
    rw [BitVec.le_def, BitVec.lt_def] at *
    omega
  simp only [State.visitSlot, live, State.visitLive, if_neg leased, aged, Bool.false_eq_true, if_false, if_neg notLast]

theorem State.visitSlot_expires (live : (s.win n).state = .live) (leased : (s.win n).reload ≠ 0#8)
    (aged : (s.win n).fresh = false) (last : (s.win n).remaining ≤ 1#8) : s.visitSlot n = s.expire n := by
  simp only [State.visitSlot, live, State.visitLive, if_neg leased, aged, Bool.false_eq_true, if_false, if_pos last]

/-- A visit changes nothing at a FREE slot, a STAGED window or an unleased LIVE one (R111). -/
theorem State.visitSlot_passes
    (h : (s.win n).isFree = true ∨ (s.win n).isStaged = true ∨ ((s.win n).state = .live ∧ (s.win n).reload = 0#8)) :
    s.visitSlot n = s := by
  rw [Window.isFree_iff, Window.isStaged_iff] at h
  obtain state | ⟨target, state⟩ | ⟨state, unleased⟩ := h
  · simp only [State.visitSlot, state]
  · simp only [State.visitSlot, state]
  · simp only [State.visitSlot, state, State.visitLive, unleased, if_true]

/-- A window that a commit or a renew has left: `visits` visits later it has lost its freshness and all but the first of
the visits from its lease (R114). -/
theorem State.win_after_visits (live : (s.win n).state = .live) (full : (s.win n).remaining = (s.win n).reload)
    (fresh : (s.win n).fresh = true) : ∀ visits : Nat, visits < (s.win n).reload.toNat →
      ((fun u : State => u.visitSlot n)^[visits + 1] s).win n =
        { s.win n with fresh := false, remaining := BitVec.ofNat 8 ((s.win n).reload.toNat - visits) } := by
  intro visits
  induction visits with
  | zero =>
    intro leased
    have leased : (s.win n).reload ≠ 0#8 := by
      rintro none
      rw [none] at leased
      exact absurd leased (by decide)
    simp [State.visitSlot_fresh live leased fresh, ← full]
  | succ visits ih =>
    intro more
    have before := ih (by omega)
    have bound := (s.win n).reload.isLt
    rw [Function.iterate_succ_apply', State.visitSlot_ages (by rw [before]; exact live)
      (by
        rw [before]
        rintro none
        rw [show (s.win n).reload = 0#8 from none] at more
        exact absurd more (by simp))
      (by rw [before]) (by rw [before, BitVec.lt_def]; simp; omega), before]
    simp only [State.setWin_win, if_true, Window.mk.injEq, true_and, and_true]
    apply BitVec.eq_of_toNat_eq
    simp
    omega

theorem State.expire_win : (s.expire n).win n = { s.win n with remaining := 0#8 }.enterDrain .expiry none (s.use n) := by
  simp [State.expire]

theorem Window.enterDrain_notLive (w : Window) (cause : DrainCause) (owed : Option Owed) (useCount : Nat) :
    (w.enterDrain cause owed useCount).isLive = false := by
  unfold Window.enterDrain
  split <;> rfl

end
end Sys2Proof.Machine
end

section
open Sys2Proof Sys2Proof.Machine

/-- Settles O25. -/
theorem refclkTickCounts : Obligations.RefclkTickCounts := by
  intro s powered
  have run : exec .refclkTick s = .next s.tick := congrArg _ (s.whilePowered_powered _ powered)
  rw [run]
  refine ⟨fun idle => by rw [State.tick_of_no_count idle], fun ticks state prescale =>
    ⟨fun part => ?_, fun whole part => ?_, fun whole period => ?_⟩⟩
  · rw [State.tick_prescales state prescale part]
  · rw [State.tick_counts state prescale whole.ge part]
  · rw [State.tick_requests state prescale whole.ge period.ge]
    exact ⟨_, rfl, State.sweepRequested_taken _⟩

/-- Settles O26: the remaining ticks of a period, taken one by one, lead to its sweep request. -/
theorem sweepRequestIsTheRestOfThePeriod : Obligations.SweepRequestIsTheRestOfThePeriod := by
  intro s powered
  have run : exec .sweepRequest s = .next s.elapsePeriod := congrArg _ (s.whilePowered_powered _ powered)
  rw [run]
  refine ⟨fun idle => by rw [State.elapsePeriod_of_no_count idle], fun ticks state prescale => ⟨?_, fun sound => ?_⟩⟩
  · exact ⟨_, rfl, State.elapsePeriod_requests state prescale ▸ State.sweepRequested_taken _⟩
  · obtain ⟨-, -, counts⟩ := sound
    rw [state] at counts
    obtain ⟨counter, part⟩ := counts
    have room : ticks * s.timer.counter + s.timer.prescaleCount < ticks * s.timer.period := by
      have next : ticks * (s.timer.counter + 1) ≤ ticks * s.timer.period := Nat.mul_le_mul_left ticks counter
      have part := part ticks prescale
      rw [Nat.mul_succ] at next
      omega
    obtain ⟨left, total⟩ := Nat.exists_eq_add_of_lt room
    rw [total, Nat.add_assoc, Nat.add_sub_cancel_left, State.tick_iterate ticks left s state prescale
      (part ticks prescale) counter total, State.elapsePeriod_requests state prescale]

/-- Settles O30: R visits take the freshness and all but one of the visits of the lease, and the next one expires it. -/
theorem leaseLastsReloadPlusOneVisits : Obligations.LeaseLastsReloadPlusOneVisits := by
  intro s n live leased full fresh
  have positive : 0 < (s.win n).reload.toNat := by
    rw [Nat.pos_iff_ne_zero]
    exact fun none => leased (BitVec.eq_of_toNat_eq none)
  refine ⟨fun visits inside => ?_, ?_⟩
  · cases visits with
    | zero => exact live
    | succ visits => rw [State.win_after_visits live full fresh visits inside]; exact live
  · have before := State.win_after_visits live full fresh ((s.win n).reload.toNat - 1) (by omega)
    rw [Nat.sub_add_cancel positive] at before
    rw [Function.iterate_succ_apply']
    generalize (fun u : State => u.visitSlot n)^[(s.win n).reload.toNat] s = u at before
    have last : (u.win n).remaining ≤ 1#8 := by
      rw [before, show (s.win n).reload.toNat - ((s.win n).reload.toNat - 1) = 1 by omega]
      exact BitVec.le_refl _
    rw [State.visitSlot_expires (by rw [before]; exact live) (by rw [before]; exact leased) (by rw [before]) last]
    exact ⟨by rw [State.expire_win]; exact Window.enterDrain_notLive .., by simp [State.expire]⟩

end

section
/-!
How a drain ends beside the responses that wait (R22, R63), and what a granted visit leaves of the part (R108, R123).
-/
namespace Sys2Proof.Machine
section
variable {s t u : State} {n : Slot} {outcome : DrainOutcome} {o : Owed}

/-! ### The ending of a drain (R22, R63) -/

theorem State.setWin_setWin (w v : Window) : (s.setWin n w).setWin n v = s.setWin n v := by
  simp [State.setWin, State.setWindows]

theorem State.endDrain_owesNone (owes : (s.win n).owed = none) :
    s.endDrain n outcome = s.setWin n (Window.cleared (s.win n).owner none) := by
  obtain ⟨-, h⟩ | ⟨o, other, -⟩ := s.endDrain_cases n outcome
  · rw [h, Window.endDrain, owes]
    rfl
  · rw [owes] at other
    cases other

/-- The slot of a drain that ends, before its response is offered. -/
theorem State.endDrain_offers (owes : (s.win n).owed = some o) :
    s.endDrain n outcome =
      (s.setWin n (Window.cleared (s.win n).owner (some ⟨o.party, o.tag, some outcome⟩))).admitOwed o.party := by
  obtain ⟨none, -⟩ | ⟨p, same, h⟩ := s.endDrain_cases n outcome
  · rw [owes] at none
    cases none
  · rw [owes, Option.some.injEq] at same
    rw [h, Window.endDrain, owes, same]
    rfl

/-- With no response waiting beside room, the drain's own response is the lowest that waits, and enters. -/
theorem State.endDrain_enters (rooms : s.RoomsSound) (owes : (s.win n).owed = some o)
    (room : s.roomFor o.party = true) :
    s.endDrain n outcome =
      (s.setWin n (Window.cleared (s.win n).owner none)).place o.party ⟨o.tag, outcome.status, []⟩ := by
  have quiet := (s.lowestWaiting_none o.party).mp (rooms o.party room)
  have lowest : LowestWaits (s.setWin n (Window.cleared (s.win n).owner (some ⟨o.party, o.tag, some outcome⟩))) o.party n
      ⟨o.tag, outcome.status, []⟩ := by
    refine ⟨by simp [Window.waitingResponse, Window.cleared, Window.isFree], fun m below => ?_⟩
    rw [State.setWin_win, if_neg (Fin.ne_of_lt below)]
    exact quiet m
  have freed : ((s.setWin n (Window.cleared (s.win n).owner (some ⟨o.party, o.tag, some outcome⟩))).win n) =
      Window.cleared (s.win n).owner (some ⟨o.party, o.tag, some outcome⟩) := by simp
  rw [State.endDrain_offers owes, State.admitOwed_enters _ _ n _ lowest room, freed, State.setWin_setWin]
  rfl

theorem State.endDrain_waits (owes : (s.win n).owed = some o) (full : s.roomFor o.party = false) :
    s.endDrain n outcome =
      s.setWin n (Window.cleared (s.win n).owner (some ⟨o.party, o.tag, some outcome⟩)) := by
  rw [State.endDrain_offers owes]
  exact State.admitOwed_stays _ _ (.inl full)

/-- A drain that ends in a state u that shows the same windows and ports as s. -/
theorem DrainEnds.of_endDrain (rooms : u.RoomsSound) (table : u.table = s.table)
    (responses : u.host.responses = s.host.responses) (maint : u.maint = s.maint)
    (table' : t.table = (u.endDrain n outcome).table)
    (host' : t.host = { s.host with responses := (u.endDrain n outcome).host.responses })
    (maint' : t.maint = (u.endDrain n outcome).maint) : DrainEnds n outcome s t := by
  have win : u.win n = s.win n := State.win_of_table table n
  have room : ∀ party, u.roomFor party = s.roomFor party := fun party => by
    cases party with
    | host => simp only [State.roomFor, State.responsePlaceFree, responses]
    | maint => simp only [State.roomFor, maint]
  have only : ∀ {w : Window}, t.table = (u.setWin n w).table → OnlyWindow n w s t := fun h =>
    .of_table (h.trans (by rw [← table]; rfl))
  have still : t.host = { s.host with responses := u.host.responses } → t.host = s.host := fun h => by
    rw [h, responses]
  unfold DrainEnds
  split
  · next owes =>
    rw [State.endDrain_owesNone (by rwa [win])] at table' host' maint'
    rw [win] at table'
    exact ⟨only table', still host', maint'.trans maint⟩
  · next o owes =>
    split
    · next enters =>
      rw [State.endDrain_enters rooms (by rwa [win]) (by rwa [room])] at table' host' maint'
      rw [win] at table'
      refine ⟨only (table'.trans (State.place_table _ _ _)), ?_⟩
      cases party : o.party with
      | host =>
        rw [party] at host' maint'
        exact ⟨host'.trans (by rw [← responses]; rfl), maint'.trans maint⟩
      | maint =>
        rw [party] at host' maint'
        exact ⟨maint'.trans (by rw [← maint]; rfl), still host'⟩
    · next full =>
      rw [State.endDrain_waits (by rwa [win]) (by rw [room]; simpa using full)] at table' host' maint'
      rw [win] at table'
      exact ⟨only table', still host', maint'.trans maint⟩

theorem State.admitOwed_host (party : Party) :
    (s.admitOwed party).host = { s.host with responses := (s.admitOwed party).host.responses } := by
  obtain h | ⟨n, r, -, -, h⟩ := s.admitOwed_cases party <;> rw [h]
  cases party <;> rfl

/-- The ending of a drain leaves the command in hand, and of the Host Port everything but the responses. -/
theorem State.endDrain_ports :
    (s.endDrain n outcome).hostHand = s.hostHand ∧
      (s.endDrain n outcome).host = { s.host with responses := (s.endDrain n outcome).host.responses } := by
  obtain ⟨-, h⟩ | ⟨o, -, h⟩ := s.endDrain_cases n outcome <;> rw [h]
  · exact ⟨rfl, rfl⟩
  · exact ⟨State.admitOwed_hostHand _ _, State.admitOwed_host _⟩

/-- The ending of a drain leaves everything but the windows and the ports. -/
theorem State.endDrain_rest :
    { s.endDrain n outcome with table := s.table, host := s.host, maint := s.maint } = s := by
  have hand := (s.endDrain_ports (n := n) (outcome := outcome)).1
  obtain ⟨windows, host, hand', maint, h⟩ := s.endDrain_only n outcome
  rw [h] at hand ⊢
  change hand' = s.hostHand at hand
  rw [hand]

/-! ### Visits (R108, R123, R126) -/

theorem State.visitSlot_hostHand : (s.visitSlot n).hostHand = s.hostHand := by
  obtain h | ⟨-, h⟩ | ⟨-, h⟩ | ⟨cause, age, -, h⟩ := s.visitSlot_cases n <;> rw [h]
  · obtain h | ⟨-, h⟩ | h | ⟨-, h⟩ := s.visitLive_cases n <;> rw [h] <;> rfl
  · exact State.endDrain_ports.1
  · rfl

theorem State.visit_hostHand (endMark : Bool) : (s.visit n endMark).hostHand = s.hostHand := by
  cases endMark with
  | true => rfl
  | false => exact State.visitSlot_hostHand

/-- What a visit does outside its slot, the tickets, the events and the ports. -/
theorem State.visit_ends (endMark : Bool) :
    VisitEnds (if endMark then .idle else walkAfter n) s (s.visit n endMark) := by
  have hand := s.visit_hostHand (n := n) endMark
  obtain ⟨expiry, pool, only⟩ := s.visit_only n endMark
  refine ⟨by rw [only.sweep], by rw [only.sweep], by rw [only.arbiter], ?_⟩
  obtain ⟨windows, host, hand', maint, h⟩ := only
  generalize s.visit n endMark = t at *
  rw [h] at hand ⊢
  change hand' = s.hostHand at hand
  rw [hand]

theorem State.visit_goesOn : VisitEnds (walkAfter n) s (s.visit n false) := s.visit_ends false

theorem WalkGoesOn.eq {walk : Walk} (h : WalkGoesOn n walk) : walk = walkAfter n := by
  obtain ⟨last, next⟩ := h
  unfold walkAfter
  split
  · next isLast => exact last isLast
  · next more => exact next (n + 1) (Fin.val_add_one_of_lt (Fin.lt_last_iff_ne_last.mpr more))

theorem State.VisitGranted.exec {endMark : Bool} (h : s.VisitGranted n endMark) :
    exec .visit s = .next (s.visit n endMark) := by
  obtain ⟨powered, walk, granted⟩ := h
  have run : s.runVisit = s.visit n endMark := by simp [State.runVisit, walk, granted]
  change Host.Outcome.next (s.whilePowered s.runVisit) = _
  rw [s.whilePowered_powered _ powered, run]

/-- An unmarked visit shows the windows, tickets and ports that its slot's visit leaves. -/
theorem State.visit_shows :
    (s.visit n false).table = ((s.grantTo .sweep).visitSlot n).table ∧
    (s.visit n false).pool = ((s.grantTo .sweep).visitSlot n).pool ∧
    (s.visit n false).host = ((s.grantTo .sweep).visitSlot n).host ∧
    (s.visit n false).maint = ((s.grantTo .sweep).visitSlot n).maint := ⟨rfl, rfl, rfl, rfl⟩

theorem State.ticket_of_pool (pool : t.pool = s.pool) (k : TicketNo) : t.ticket k = s.ticket k := by
  unfold State.ticket
  rw [pool]

theorem State.use_of_pool (pool : t.pool = s.pool) (m : Slot) : t.use m = s.use m := by
  unfold State.use
  rw [pool]

theorem State.visitSlot_live_shows (live : (s.win n).state = .live) :
    (s.visitSlot n).pool = s.pool ∧ (s.visitSlot n).host = s.host ∧ (s.visitSlot n).maint = s.maint := by
  have visited : s.visitSlot n = s.visitLive n := by simp only [State.visitSlot, live]
  rw [visited]
  obtain h | ⟨-, h⟩ | h | ⟨-, h⟩ := s.visitLive_cases n <;> rw [h] <;> exact ⟨rfl, rfl, rfl⟩

theorem State.expire_win_of_ne {m : Slot} (other : m ≠ n) : (s.expire n).win m = s.win m := by
  simp [State.expire, other]

theorem State.expire_expired (m : Slot) : (s.expire n).expired m = if m = n then true else s.expired m := by
  simp [State.expire]

/-- An age of 15 stays (R10, R64). -/
theorem nextAge_eq (age : BitVec 4) : nextAge age = BitVec.ofNat 4 (min 15 (age.toNat + 1)) := by
  revert age; decide

theorem limit_le_nextAge_iff (limit age : BitVec 4) :
    limit ≤ nextAge age ↔ limit.toNat ≤ min 15 (age.toNat + 1) := by
  have top : (nextAge age).toNat = min 15 (age.toNat + 1) := by
    rw [nextAge_eq, BitVec.toNat_ofNat]
    omega
  rw [BitVec.le_def, top]

theorem State.visitSlot_forces {cause : DrainCause} {age : BitVec 4} (state : (s.win n).state = .draining cause age)
    (forced : s.timer.drainLimit ≠ 0#4 ∧ s.timer.drainLimit.toNat ≤ min 15 (age.toNat + 1)) :
    s.visitSlot n = s.forceDrain n := by
  simp only [State.visitSlot, state, State.visitDraining, limit_le_nextAge_iff]
  exact if_pos forced

theorem State.visitSlot_drains {cause : DrainCause} {age : BitVec 4} (state : (s.win n).state = .draining cause age)
    (below : ¬ (s.timer.drainLimit ≠ 0#4 ∧ s.timer.drainLimit.toNat ≤ min 15 (age.toNat + 1))) :
    s.visitSlot n = s.setWin n { s.win n with state := .draining cause (BitVec.ofNat 4 (min 15 (age.toNat + 1))) } := by
  simp only [State.visitSlot, state, State.visitDraining, limit_le_nextAge_iff, ← nextAge_eq]
  exact if_neg below

end
end Sys2Proof.Machine
end

section
open Sys2Proof Sys2Proof.Machine

/-- Settles O27, by what the window's lease is at the visit. -/
theorem visitAgesLease : Obligations.VisitAgesLease := by
  intro s n walk granted goesOn live leased
  have ends := s.visit_goesOn (n := n)
  rw [goesOn.eq]
  refine ⟨_, granted.exec, ends, ?_⟩
  obtain ⟨table, pool, host, maint⟩ := s.visit_shows (n := n)
  obtain ⟨pool', host', maint'⟩ := State.visitSlot_live_shows (s := s.grantTo .sweep) live
  generalize s.visit n false = t at *
  have only : ∀ {w : Window}, (s.grantTo .sweep).visitSlot n = (s.grantTo .sweep).setWin n w → OnlyWindow n w s t :=
    fun h => .of_table (table.trans (by rw [h]; rfl))
  refine ⟨pool.trans pool', host.trans host', maint.trans maint', fun fresh => ?_, fun aged more => ?_,
    fun aged last => ?_⟩
  · exact only (State.visitSlot_fresh (s := s.grantTo .sweep) live leased fresh)
  · exact only (State.visitSlot_ages (s := s.grantTo .sweep) live leased aged more)
  · rw [State.visitSlot_expires (s := s.grantTo .sweep) live leased aged
      (last ▸ BitVec.le_refl _)] at table
    have win := State.win_of_table table
    have expired := State.expired_of_table table
    refine ⟨?_, fun m other => ?_, fun m => ?_, by rw [table]; rfl, by rw [table]; rfl, by rw [table]; rfl⟩
    · rw [win, State.expire_win]
      exact Window.enterDrain_drained ..
    · rw [win, State.expire_win_of_ne other]
      rfl
    · rw [expired, State.expire_expired]
      rfl

/-- Settles O28: the drain grows older, or is forced and ends. -/
theorem visitAgesDrain : Obligations.VisitAgesDrain := by
  intro s n walk cause age granted goesOn queues state
  have ends := s.visit_goesOn (n := n)
  rw [goesOn.eq]
  refine ⟨_, granted.exec, ends, ?_⟩
  obtain ⟨table, pool, host, maint⟩ := s.visit_shows (n := n)
  generalize s.visit n false = t at *
  split
  · next forced =>
    rw [State.visitSlot_forces (s := s.grantTo .sweep) state forced, State.forceDrain] at table pool host maint
    have rooms : ((s.grantTo .sweep).orphanTickets n).RoomsSound := (State.queuesSound_iff.mp queues).2.2.2.1
    have ports := (((s.grantTo .sweep).orphanTickets n).endDrain_ports (n := n) (outcome := .forced)).2
    have pool' : t.pool = ((s.grantTo .sweep).orphanTickets n).pool :=
      pool.trans (State.endDrain_only _ n .forced).pool
    refine ⟨fun k => ?_, fun m => ?_, .of_endDrain rooms rfl rfl rfl table ?_ maint⟩
    · rw [State.ticket_of_pool pool', State.orphanTickets_ticket]
      rfl
    · rw [State.use_of_pool pool', State.orphanTickets_use]
      rfl
    · rw [host]
      change { State.host _ with drainForced := true } = _
      rw [ports]
      rfl
  · next older =>
    rw [State.visitSlot_drains (s := s.grantTo .sweep) state older] at table pool host maint
    exact ⟨.of_table table, pool, host, maint⟩

/-- Settles O29. -/
theorem visitPassesOver : Obligations.VisitPassesOver := by
  refine ⟨fun s n walk granted goesOn passes => ?_, fun s n granted => ?_⟩
  · rw [goesOn.eq]
    obtain ⟨table, pool, host, maint⟩ := s.visit_shows (n := n)
    rw [State.visitSlot_passes (s := s.grantTo .sweep) passes] at table pool host maint
    exact ⟨_, granted.exec, s.visit_goesOn, table, pool, host, maint⟩
  · exact ⟨_, granted.exec, s.visit_ends true, rfl, rfl, rfl, rfl⟩

end

section
/-!
The Check Port (R28 to R33, R45, R46, R56 to R58, R66), an equation per case, and the fabric reset (R50, R68, R69).
-/
namespace Sys2Proof.Machine
section
variable {s t : State}

/-! ### The channels (R28, R45, R56, R68) -/

theorem State.requestReady_iff :
    s.requestReady = true ↔ s.pornLow = false ∧ s.frst = false ∧ s.lookup.verdicts.length < 8 := by
  simp only [State.requestReady, Bool.and_eq_true, Bool.not_eq_true', and_assoc]
  exact and_congr_right fun _ => and_congr_right fun _ => decide_eq_true_iff

theorem State.completionReady_iff : s.completionReady = true ↔ s.pornLow = false ∧ s.frst = false := by
  simp [State.completionReady]

theorem State.verdictValid_iff :
    s.verdictValid = true ↔ s.pornLow = false ∧ s.frst = false ∧ s.lookup.verdicts ≠ [] := by
  simp [State.verdictValid, and_assoc]

theorem exec_lookupRequest_of_ready (q : LookupRequest) (ready : s.requestReady = true) :
    exec (.lookupRequest q) s = .next (s.arrive q) := congrArg _ (if_pos ready)

theorem exec_lookupRequest_of_not_ready (q : LookupRequest) (closed : ¬ s.requestReady = true) :
    exec (.lookupRequest q) s = .next s := congrArg _ (if_neg closed)

theorem exec_completionNotice_of_ready (k : TicketNo) (r : Requester) (ready : s.completionReady = true) :
    exec (.completionNotice k r) s = .next (s.complete k r) := congrArg _ (if_pos ready)

theorem exec_completionNotice_of_not_ready (k : TicketNo) (r : Requester) (closed : ¬ s.completionReady = true) :
    exec (.completionNotice k r) s = .next s := congrArg _ (if_neg closed)

theorem exec_verdictDeparture_of_valid (valid : s.verdictValid = true) :
    exec .verdictDeparture s = .next s.departVerdict := congrArg _ (if_pos valid)

theorem exec_verdictDeparture_of_not_valid (closed : ¬ s.verdictValid = true) :
    exec .verdictDeparture s = .next s := congrArg _ (if_neg closed)

/-! ### Arrival (R29 to R33) -/

theorem State.raiseProtocol_raised (kind : ProtocolKind) : ProtocolRaised kind s (s.raiseProtocol kind) := by
  unfold ProtocolRaised State.raiseProtocol
  cases s.host.protocolStatus <;> rfl

theorem State.arrive_reused {q : LookupRequest} (held : (q.requester, q.tag) ∈ s.lookup.inFlight) :
    s.arrive q = s.raiseProtocol (.tagReuse q.requester) :=
  if_pos (List.contains_iff_mem.mpr held)

theorem State.arrive_badKind {q : LookupRequest} (fresh : (q.requester, q.tag) ∉ s.lookup.inFlight)
    (kind : AccessKind.ofCode q.kindCode = none) : s.arrive q = s.raiseProtocol (.badKind q.requester) := by
  rw [State.arrive, if_neg (fresh ∘ List.contains_iff_mem.mp), kind]

theorem State.arrive_admits {q : LookupRequest} {kind : AccessKind} (fresh : (q.requester, q.tag) ∉ s.lookup.inFlight)
    (good : AccessKind.ofCode q.kindCode = some kind) : s.arrive q = s.admitRequest q kind := by
  rw [State.arrive, if_neg (fresh ∘ List.contains_iff_mem.mp), good]

/-! ### Completion notices (R57, R58) -/

theorem State.complete_free {k : TicketNo} {r : Requester} (free : s.ticket k = .free) :
    s.complete k r = s.raiseProtocol (.unknownTicket r) := by
  rw [State.complete, free]

theorem State.complete_wrongRequester {k : TicketNo} {r holder : Requester} (other : holder ≠ r)
    (held : s.ticket k = .orphan holder ∨ ∃ n, s.ticket k = .counted holder n) :
    s.complete k r = s.raiseProtocol (.wrongRequester r) := by
  obtain held | ⟨n, held⟩ := held <;> rw [State.complete, held] <;> exact if_neg other

theorem State.complete_orphan {k : TicketNo} {r : Requester} (held : s.ticket k = .orphan r) :
    s.complete k r = s.setTicket k .free := by
  rw [State.complete, held]
  exact if_pos rfl

theorem State.complete_counted {k : TicketNo} {r : Requester} {n : Slot} (held : s.ticket k = .counted r n) :
    s.complete k r = s.completeCounted k n := by
  rw [State.complete, held]
  exact if_pos rfl

theorem State.ticketReturned_shows (k : TicketNo) (n : Slot) (pool : t.pool = (s.ticketReturned k n).pool) :
    (∀ j : TicketNo, t.ticket j = if j = k then .free else s.ticket j) ∧
    (∀ m : Slot, t.use m = if m = n then s.use n - 1 else s.use m) := by
  refine ⟨fun j => ?_, fun m => ?_⟩
  · rw [State.ticket_of_pool pool]
    simp [State.ticketReturned]
  · rw [State.use_of_pool pool]
    simp [State.ticketReturned]

/-! ### Fabric reset (R69, R148, R161) -/

/-- The DRAINING slots that owe a party a response, in ascending order. -/
def State.owingSlots (s : State) (party : Party) : List Slot :=
  allSlots.filter fun m => (s.win m).isDraining && (s.win m).owed.any fun o => o.party == party

theorem State.mem_owingSlots {party : Party} {m : Slot} :
    m ∈ s.owingSlots party ↔ (s.win m).isDraining = true ∧ ∃ o, (s.win m).owed = some o ∧ o.party = party := by
  simp [State.owingSlots, allSlots, Option.any_eq_true]

theorem State.fabricFreed_win (m : Slot) : s.fabricFreed.win m = (s.win m).atFabricReset := by
  rw [State.fabricFreed, State.mapWindows_win]
  rfl

/-- The response that waits in a slot that a fabric reset has freed. -/
theorem Window.atFabricReset_waiting {w : Window} (draining : w.isDraining = true) (party : Party) :
    w.atFabricReset.waitingResponse party =
      if w.owed.any (fun o => o.party == party) = true then
        w.owed.map fun o => (⟨o.tag, .fabricReset, []⟩ : Response)
      else none := by
  rw [Window.atFabricReset, if_pos draining]
  cases owed : w.owed with
  | none => simp [Window.endDrain, owed, Window.waitingResponse, Window.cleared]
  | some o =>
    simp [Window.endDrain, owed, Window.waitingResponse, Window.cleared, Owed.complete, Window.isFree,
      DrainOutcome.status]

/-- Where a party has places, the responses that wait after the reset are those of the freed slots. -/
theorem State.fabricFreed_waiting (rooms : s.RoomsSound) (party : Party) :
    (s.fabricFreed.waitingSlots party).take (s.placesFor party) = (s.owingSlots party).take (s.placesFor party) := by
  rcases Nat.eq_zero_or_pos (s.placesFor party) with full | room
  · rw [full, List.take_zero, List.take_zero]
  · unfold State.waitingSlots State.owingSlots
    refine congrArg (List.take _) (List.filter_congr fun m _ => ?_)
    rw [State.fabricFreed_win]
    cases draining : (s.win m).isDraining with
    | true =>
      rw [Window.atFabricReset_waiting draining]
      cases (s.win m).owed with
      | none => rfl
      | some o => by_cases mine : o.party = party <;> simp [mine]
    | false =>
      rw [Window.atFabricReset, if_neg (by simp [draining]),
        (s.waitingSlots_eq_nil party).mp (rooms.nothingWaits room) m]
      rfl

theorem State.fabricFreed_places (party : Party) : s.fabricFreed.placesFor party = s.placesFor party := by
  have host : s.fabricFreed.host = s.host := by rw [State.fabricFreed, State.mapWindows_host]
  have maint : s.fabricFreed.maint = s.maint := by rw [State.fabricFreed, State.mapWindows_maint]
  cases party with
  | host => simp only [State.placesFor, host]
  | maint => simp only [State.placesFor, maint]

/-- The slots whose responses enter at a fabric reset (R148, R161). -/
def State.enteringSlots (s : State) (party : Party) : List Slot := (s.owingSlots party).take (s.placesFor party)

/-- The response that a freed slot owes. -/
def State.resetAnswer (s : State) (m : Slot) : Option Response :=
  (s.win m).owed.map fun o => (⟨o.tag, .fabricReset, []⟩ : Response)

theorem State.owes_of_entering {party : Party} {m : Slot} (h : m ∈ s.enteringSlots party) :
    (s.win m).isDraining = true ∧ ∃ o, (s.win m).owed = some o ∧ o.party = party :=
  State.mem_owingSlots.mp (List.mem_of_mem_take h)

theorem State.entering_once {m : Slot} (h : m ∈ s.enteringSlots .maint) : m ∉ s.enteringSlots .host := by
  intro host
  obtain ⟨-, o, owes, party⟩ := State.owes_of_entering h
  obtain ⟨-, p, owes', party'⟩ := State.owes_of_entering host
  rw [owes, Option.some.injEq] at owes'
  rw [← owes', party] at party'
  cases party'

theorem State.fabricFreed_answer {party : Party} {m : Slot} (h : m ∈ s.enteringSlots party) :
    (s.fabricFreed.win m).waitingResponse party = s.resetAnswer m := by
  obtain ⟨draining, o, owes, mine⟩ := State.owes_of_entering h
  rw [State.fabricFreed_win, Window.atFabricReset_waiting draining, if_pos (by simp [owes, mine])]
  rfl

/-- What the offers of a fabric reset leave of windows and ports: first the host's responses enter, then the tool's. -/
theorem State.resetFabric_entered (rooms : s.RoomsSound) :
    (∀ m, s.resetFabric.win m =
      if (s.win m).isDraining = true then
        Window.cleared (s.win m).owner
          (if m ∈ s.enteringSlots .host ∨ m ∈ s.enteringSlots .maint then none
           else (s.win m).owed.map fun o => ⟨o.party, o.tag, some .fabricReset⟩)
      else s.win m) ∧
    s.resetFabric.host = { s.host with
      responses := s.host.responses ++ (s.enteringSlots .host).filterMap s.resetAnswer } ∧
    s.resetFabric.maint = { s.maint with
      response := ((s.enteringSlots .maint).filterMap s.resetAnswer).head?.or s.maint.response } := by
  have first := s.fabricFreed.admitAllOwed_entered .host
  have second := (s.fabricFreed.admitAllOwed .host).admitAllOwed_entered .maint
  obtain ⟨waits, places⟩ := s.fabricFreed.admitAllOwed_other (party := .host) (q := .maint) (by decide)
  rw [waits, places, State.fabricFreed_places, State.fabricFreed_waiting rooms] at second
  rw [State.fabricFreed_places, State.fabricFreed_waiting rooms] at first
  change Entered .host (s.enteringSlots .host) _ _ at first
  change Entered .maint (s.enteringSlots .maint) _ _ at second
  rw [s.resetFabric_eq]
  generalize s.fabricFreed.admitAllOwed .host = u at first second
  generalize u.admitAllOwed .maint = v at second
  obtain ⟨win, maint, host⟩ := first
  obtain ⟨win', host', maint'⟩ := second
  refine ⟨fun m => ?_, ?_, ?_⟩
  · rw [State.settleYield_win, win', win, State.fabricFreed_win, Window.atFabricReset]
    by_cases draining : (s.win m).isDraining = true
    · simp only [draining, if_true]
      by_cases tool : m ∈ s.enteringSlots .maint
      · simp only [tool, State.entering_once tool, or_true, if_true, if_false]
        rfl
      · by_cases mine : m ∈ s.enteringSlots .host
        · simp only [tool, mine, or_false, if_true, if_false]
          rfl
        · simp only [tool, mine, or_self, if_false]
          rfl
    · rw [if_neg fun tool => draining (State.owes_of_entering tool).1,
        if_neg fun mine => draining (State.owes_of_entering mine).1, if_neg draining, if_neg draining]
  · have answers : ((s.enteringSlots .host).filterMap fun m => (s.fabricFreed.win m).waitingResponse .host) =
        (s.enteringSlots .host).filterMap s.resetAnswer :=
      List.filterMap_congr fun m mem => State.fabricFreed_answer mem
    rw [State.settleYield_host, host', host, answers, State.fabricFreed, State.mapWindows_host]
  · have answers : ((s.enteringSlots .maint).filterMap fun m => (u.win m).waitingResponse .maint) =
        (s.enteringSlots .maint).filterMap s.resetAnswer :=
      List.filterMap_congr fun m mem => by
        rw [win, if_neg (State.entering_once mem)]
        exact State.fabricFreed_answer mem
    rw [State.settleYield_maint, maint', maint, answers, State.fabricFreed, State.mapWindows_maint]

theorem State.admitAllOwed_hostHand (party : Party) : (s.admitAllOwed party).hostHand = s.hostHand :=
  s.admitAllOwed_induct (P := fun u => u.hostHand = s.hostHand) party
    (fun u h => (u.admitOwed_hostHand party).trans h) rfl

theorem exec_fabricReset_of_released (released : s.frst = false) :
    exec .fabricReset s = .next { s.resetFabric with frst := true } := by
  change Host.Outcome.next (if s.frst = true then s else { s.resetFabric with frst := true }) = _
  rw [if_neg (by simp [released])]

/-- What a fabric reset leaves outside the windows and the ports. -/
theorem State.resetFabric_rest :
    KeepsTableItems s s.resetFabric ∧ YieldSettled s s.resetFabric ∧ s.resetFabric.lookup = s.lookup.emptied ∧
      s.resetFabric.pool = TicketPool.emptied ∧
      { s.resetFabric with
        table := s.table, host := s.host, maint := s.maint, sweep := s.sweep, lookup := s.lookup, pool := s.pool } = s := by
  have hand : s.resetFabric.hostHand = s.hostHand := by
    rw [s.resetFabric_eq, State.settleYield_hostHand, State.admitAllOwed_hostHand, State.admitAllOwed_hostHand,
      State.fabricFreed, State.mapWindows_hostHand]
  have settled : YieldSettled s s.resetFabric := by
    rw [s.resetFabric_eq]
    refine State.settleYield_settled s _ ?_
    rw [(State.admitAllOwed_only _ .maint).sweep, (State.admitAllOwed_only _ .host).sweep, State.fabricFreed,
      State.mapWindows_sweep]
  obtain ⟨yields, only⟩ := s.resetFabric_only
  refine ⟨only.items, settled, only.lookup, only.pool, ?_⟩
  obtain ⟨windows, host, hand', maint, h⟩ := only
  generalize s.resetFabric = u at *
  rw [h] at hand ⊢
  change hand' = s.hostHand at hand
  rw [hand]

end
end Sys2Proof.Machine
end

section
open Sys2Proof Sys2Proof.Machine

/-- Settles O12, by the three channels' conditions. -/
theorem closedChannelsChangeNothing : Obligations.ClosedChannelsChangeNothing := by
  refine ⟨fun s q closed => exec_lookupRequest_of_not_ready q ?_, fun s k r closed =>
    exec_completionNotice_of_not_ready k r ?_, fun s closed => exec_verdictDeparture_of_not_valid ?_⟩
  · rw [State.requestReady_iff]
    rintro ⟨-, released, place⟩
    rcases closed with asserted | full
    · rw [asserted] at released
      cases released
    · omega
  · rw [State.completionReady_iff, closed]
    exact nofun
  · rw [State.verdictValid_iff]
    rintro ⟨-, released, present⟩
    rcases closed with asserted | empty
    · rw [asserted] at released
      cases released
    · exact present empty

/-- Settles O13. -/
theorem requestDiscarded : Obligations.RequestDiscarded := by
  intro s q powered released place
  have ready := State.requestReady_iff.mpr ⟨powered, released, place⟩
  refine ⟨fun held => ?_, fun fresh reserved => ?_⟩
  · rw [exec_lookupRequest_of_ready q ready, State.arrive_reused held]
    exact ⟨_, rfl, State.raiseProtocol_raised _⟩
  · rw [exec_lookupRequest_of_ready q ready, State.arrive_badKind fresh (by rw [reserved]; rfl)]
    exact ⟨_, rfl, State.raiseProtocol_raised _⟩

/-- Settles O14, by the admission of the arrival class. -/
theorem requestAdmitted : Obligations.RequestAdmitted := by
  intro s q kind powered released place fresh code
  have good : AccessKind.ofCode q.kindCode = some kind := by rw [code]; cases kind <;> rfl
  rw [exec_lookupRequest_of_ready q (State.requestReady_iff.mpr ⟨powered, released, place⟩),
    State.arrive_admits fresh good]
  refine ⟨_, rfl, ?_⟩
  obtain ⟨admits, h⟩ | ⟨refused, h⟩ := s.admitRequest_cases q kind
  · rw [State.admits_iff] at admits
    rw [h]
    exact ⟨rfl, rfl, Eq.mpr (if_pos admits) ⟨rfl, rfl, rfl⟩, rfl⟩
  · rw [← Bool.not_eq_true, State.admits_iff] at refused
    rw [h]
    exact ⟨rfl, rfl, Eq.mpr (if_neg refused) ⟨rfl, rfl, State.settleYield_settled s _ rfl⟩, rfl⟩

/-- Settles O21. -/
theorem verdictDeparts : Obligations.VerdictDeparts := by
  intro s v rest powered released verdicts flight
  have valid := State.verdictValid_iff.mpr ⟨powered, released, by rw [verdicts]; exact List.cons_ne_nil v rest⟩
  refine ⟨by simp [State.presentedVerdict, valid, verdicts], ?_⟩
  rw [exec_verdictDeparture_of_valid valid, State.departVerdict, verdicts]
  refine ⟨_, rfl, rfl, rfl, rfl, fun pair => ?_, rfl⟩
  rw [flight.2.mem_erase_iff, and_comm]

/-- Settles O22, by the ticket and by whether it is the last of a drain. -/
theorem completionAccepted : Obligations.CompletionAccepted := by
  intro s k r powered released queues
  rw [exec_completionNotice_of_ready k r (State.completionReady_iff.mpr ⟨powered, released⟩)]
  refine ⟨fun orphan => ?_, fun n counted used => ?_⟩
  · rw [State.complete_orphan orphan]
    exact ⟨_, rfl, fun j => s.setTicket_ticket k .free j, fun m => rfl, rfl⟩
  · rw [State.complete_counted counted]
    refine ⟨_, rfl, ?_⟩
    obtain ⟨draining, last, h⟩ | ⟨more, h⟩ := s.completeCounted_cases k n <;> rw [h]
    · have rooms : (s.ticketReturned k n).RoomsSound := (State.queuesSound_iff.mp queues).2.2.2.1
      have only := (s.ticketReturned k n).endDrain_only n .drained
      obtain ⟨hand, ports⟩ := (s.ticketReturned k n).endDrain_ports (n := n) (outcome := .drained)
      obtain ⟨tickets, uses⟩ := State.ticketReturned_shows (t := ((s.ticketReturned k n).endDrain n .drained).settleYield)
        k n only.pool
      rw [if_pos ⟨draining, by omega⟩]
      refine ⟨tickets, uses, .of_endDrain rooms rfl rfl rfl rfl ports rfl, State.settleYield_settled s _ only.sweep, ?_⟩
      have rest := (s.ticketReturned k n).endDrain_rest (n := n) (outcome := .drained)
      exact congrArg (fun u : State => { u with pool := s.pool, sweep := s.sweep }) rest
    · obtain ⟨tickets, uses⟩ := State.ticketReturned_shows (s := s) k n rfl
      rw [if_neg fun h => more h.1 (by omega)]
      exact ⟨tickets, uses, rfl⟩

/-- Settles O24: the freed slots' responses are the ones that wait, and enter while there is room. -/
theorem fabricResetAndRelease : Obligations.FabricResetAndRelease := by
  refine ⟨fun s released queues => ?_, fun s asserted => congrArg _ (if_pos asserted), fun s => rfl⟩
  have run := exec_fabricReset_of_released released
  obtain ⟨-, -, -, rooms, -⟩ := State.queuesSound_iff.mp queues
  obtain ⟨win, host, maint⟩ := State.resetFabric_entered rooms
  obtain ⟨keeps, settled, lookup, pool, rest⟩ := s.resetFabric_rest
  generalize s.resetFabric = u at *
  refine ⟨_, run, rfl, lookup, fun k => ?_, fun m => ?_, ⟨win, host, maint⟩, keeps, settled, ?_⟩
  · change u.ticket k = _
    unfold State.ticket
    rw [pool]
    simp [TicketPool.emptied]
  · change u.use m = _
    unfold State.use
    rw [pool]
    simp [TicketPool.emptied]
  · exact congrArg (fun v : State => { v with frst := s.frst }) rest

/-- Settles O23. -/
theorem completionRefused : Obligations.CompletionRefused := by
  intro s k r powered released
  rw [exec_completionNotice_of_ready k r (State.completionReady_iff.mpr ⟨powered, released⟩)]
  refine ⟨fun free => ?_, fun ⟨holder, other, held⟩ => ?_⟩
  · rw [State.complete_free free]
    exact ⟨_, rfl, State.raiseProtocol_raised _⟩
  · rw [State.complete_wrongRequester other held]
    exact ⟨_, rfl, State.raiseProtocol_raised _⟩

end

section
/-!
The Host Port's command assembly (R135 to R138), and what the engine does with the head of the queue at its taking
(R140 to R142, R159).
-/
namespace Sys2Proof.Machine
section
variable {s t : State}

/-! ### Words of a command (R135 to R138) -/

theorem wordsOn_pos (party : Party) (number : BitVec 8) : 1 ≤ wordsOn party number := by
  have rows : ∀ r ∈ commandTable, 1 ≤ r.words := by decide
  unfold wordsOn
  split
  · next r row => exact rows r (List.mem_of_find?_eq_some row)
  · exact le_rfl

theorem exec_commandWord_of_powered (powered : s.pornLow = false) (privilege : Privilege) (word : Word) :
    exec (.commandWord privilege word) s = .next (s.writeCommand privilege word) := by
  change Host.Outcome.next (s.whilePowered (s.writeCommand privilege word)) = _
  rw [s.whilePowered_powered _ powered]

theorem State.writeCommand_idle (idle : s.host.assembler = .idle) (privilege : Privilege) (word : Word) :
    s.writeCommand privilege word = s.takeHeader privilege word := by
  rw [State.writeCommand, idle]

theorem State.writeCommand_collecting {c : Command} {remaining : Nat}
    (collecting : s.host.assembler = .collecting c remaining) (privilege : Privilege) (word : Word) :
    s.writeCommand privilege word = s.takeData privilege word c remaining := by
  rw [State.writeCommand, collecting]

theorem State.writeCommand_discard {remaining : Nat} (discard : s.host.assembler = .discard remaining)
    (privilege : Privilege) (word : Word) :
    s.writeCommand privilege word = s.setAssembler (if remaining ≤ 1 then .idle else .discard (remaining - 1)) := by
  rw [State.writeCommand, discard]

/-- Beside an IDLE assembler a place is free exactly while fewer than 8 commands are queued (R134, R135). -/
theorem State.commandPlacesFree_idle (idle : s.host.assembler = .idle) :
    s.commandPlacesFree = 0 ↔ 8 ≤ s.host.commands.length := by
  rw [s.commandPlacesFree_eq, idle]
  exact Nat.sub_eq_zero_iff_le

/-- A complete command joins the queue, and the engine may take the head. -/
theorem State.enqueueCommand_taken (c : Command) (privilege : Privilege)
    (taken : t = (s.enqueueCommand c privilege).takeInHand) :
    EngineMovesOn s.hostHand (s.host.commands ++ [⟨c, privilege⟩]) t ∧
    t.host = { s.host with assembler := .idle, commands := t.host.commands } ∧
    { t with host := s.host, hostHand := s.hostHand } = s := by
  subst taken
  refine ⟨(s.enqueueCommand c privilege).takeInHand_movesOn, (s.enqueueCommand c privilege).takeInHand_host, ?_⟩
  exact congrArg (fun u : State => { u with host := s.host }) (s.enqueueCommand c privilege).takeInHand_rest

/-! ### The head of the queue (R140 to R142) -/

/-- A command answered at its taking without an effect (R141). -/
theorem State.answerTaken_answers (r : Response) (hand : s.hostHand = none) :
    AnsweredAtTaking r s (s.answerTaken r) := by
  refine ⟨?_, State.answerTaken_host r⟩
  have moves := (s.dropHead.place .host r).takeInHand_movesOn
  rwa [show (s.dropHead.place .host r).hostHand = none from hand] at moves

theorem exec_unknownCommand_host {c : HostCommand} (powered : s.pornLow = false)
    (head : s.host.commands.head? = some c) (mayTake : s.mayTake = true)
    (unknown : symOn .host c.command.number = none) :
    exec (.unknownCommand .host) s = .next (s.answerTaken (c.command.reply .unknownCommand)) := by
  obtain ⟨rest, queue⟩ := List.head?_eq_some_iff.mp head
  change Host.Outcome.next (s.whilePowered s.answerUnknownHost) = _
  rw [s.whilePowered_powered _ powered, State.answerUnknownHost, queue]
  simp [mayTake, unknown]

/-- A command in the command register whose number names no tool command is answered at once (R159). -/
theorem State.answerUnknownTool_answers {c : Command} (command : s.maint.command = some c)
    (empty : s.maint.response = none) (unknown : symOn .maint c.number = none) :
    s.answerUnknownTool = { s with maint := { s.maint with
      command := none, response := some (c.reply .unknownCommand) } } := by
  rw [State.answerUnknownTool, command]
  simp [unknown, State.roomFor, empty]

theorem State.answerUnknownTool_keeps {c : Command} (command : s.maint.command = some c)
    (known : symOn .maint c.number ≠ none) : s.answerUnknownTool = s := by
  rw [State.answerUnknownTool, command]
  simp [known]

theorem exec_unknownCommand_maint {c : Command} (powered : s.pornLow = false) (command : s.maint.command = some c)
    (empty : s.maint.response = none) (unknown : symOn .maint c.number = none) :
    exec (.unknownCommand .maint) s = .next { s with maint := { s.maint with
      command := none, response := some (c.reply .unknownCommand) } } := by
  change Host.Outcome.next (s.whilePowered s.answerUnknownTool) = _
  rw [s.whilePowered_powered _ powered, State.answerUnknownTool_answers command empty unknown]

theorem State.Taken.hand {sym : CommandSym} {c : HostCommand} (taken : s.Taken sym c) : s.hostHand = none :=
  (State.mayTake_iff.mp taken.2.2.1).1

/-- A supervisor table command at the head, written at user privilege, is refused without a grant (R74, R141). -/
theorem State.Taken.runSupervisor_user {sym : CommandSym} {c : HostCommand} (taken : s.Taken sym c)
    (user : c.privilege = .user) (operation : Party → Command → State → State × Option Response) :
    s.whilePowered (s.runSupervisor sym operation) = s.answerTaken (c.command.reply .privilege) := by
  obtain ⟨powered, head, mayTake, number⟩ := taken
  obtain ⟨rest, queue⟩ := List.head?_eq_some_iff.mp head
  have hand : s.hostHand = none := (State.mayTake_iff.mp mayTake).1
  rw [s.whilePowered_powered _ powered, State.runSupervisor, hand]
  simp [State.refuseUserPrivilege, queue, mayTake, number, user]

/-- A supervisor command answered at its taking, written at user privilege (R141). -/
theorem State.Taken.runAtTaking_user {sym : CommandSym} {c : HostCommand} (taken : s.Taken sym c)
    (only : sym.supervisorOnly = true) (user : c.privilege = .user)
    (effect : Command → State → State × Response) :
    s.whilePowered (s.runAtTaking sym effect) = s.answerTaken (c.command.reply .privilege) := by
  rw [taken.runAtTaking, if_pos ⟨only, user⟩]

/-- A taken command whose row answers PRIVILEGE and does nothing else (R74, R141). -/
theorem State.Taken.refused {sym : CommandSym} {c : HostCommand} {i : Instr} (taken : s.Taken sym c)
    (run : exec i s = .next (s.answerTaken (c.command.reply .privilege))) :
    ∃ t, exec i s = .next t ∧ AnsweredAtTaking ⟨c.command.tag, .privilege, []⟩ s t ∧
      { t with host := s.host, hostHand := s.hostHand } = s :=
  ⟨_, run, State.answerTaken_answers _ taken.hand, State.answerTaken_rest _⟩

/-- What a taken command does that passes the privilege check: its effect, then its answer (R141, R142). -/
theorem State.Taken.runAtTaking_supervisor {sym : CommandSym} {c : HostCommand} (taken : s.Taken sym c)
    (supervisor : c.privilege = .supervisor) (effect : Command → State → State × Response) :
    s.whilePowered (s.runAtTaking sym effect) =
      (effect c.command s).1.answerTaken (effect c.command s).2 := by
  rw [taken.runAtTaking, if_neg (by simp [supervisor])]

end
end Sys2Proof.Machine
end

section
open Sys2Proof Sys2Proof.Machine

/-- Settles O1: `step` says it case by case. -/
theorem stepRunsFrontCommand : Obligations.StepRunsFrontCommand := by
  refine ⟨fun c rest s queue => ?_, fun s empty => ?_⟩
  · rw [step, queue]
  · rw [step, empty]

/-- Settles O16, claim by claim; the sweep's is WALKING without a yield to a claim that is present. -/
theorem claimsPresent : Obligations.ClaimsPresent := by
  refine fun s => ⟨State.maintClaims_iff, State.lookupClaims_iff, State.hostClaims_iff, ?_, State.mayTake_iff⟩
  rw [← State.othersClaim_iff]
  simp [State.sweepClaims, imp_iff_not_or]

/-- Settles O31, by whether a place is free and by the word count that the number fixes. -/
theorem commandHeaderTaken : Obligations.CommandHeaderTaken := by
  rintro s privilege word words powered idle rfl
  have pos := wordsOn_pos .host (word.extractLsb' 24 8)
  refine ⟨_, exec_commandWord_of_powered powered privilege word, ?_⟩
  rw [State.writeCommand_idle idle, State.takeHeader]
  simp only [State.commandPlacesFree_idle idle]
  have single : wordsOn .host (Command.ofHeader word).number - 1 = 0 ↔ wordsOn .host (word.extractLsb' 24 8) = 1 := by
    change wordsOn .host (word.extractLsb' 24 8) - 1 = 0 ↔ _
    omega
  by_cases full : 8 ≤ s.host.commands.length
  · simp only [if_pos full, single]
    exact State.raiseProtocol_raised _
  · simp only [if_neg full, single]
    by_cases one : wordsOn .host (word.extractLsb' 24 8) = 1
    · simp only [if_pos one]
      obtain ⟨moves, host, rest⟩ := State.enqueueCommand_taken (s := s) (Command.ofHeader word) privilege rfl
      rw [← idle] at host
      exact ⟨moves, host, rest⟩
    · simp only [if_neg one]
      rfl

/-- Settles O32, by the state of the assembler and by whether the word is the last one. -/
theorem commandDataTaken : Obligations.CommandDataTaken := by
  refine fun s privilege word powered => ⟨fun c remaining collecting pos => ?_, fun remaining discard pos => ?_⟩ <;>
    rw [exec_commandWord_of_powered powered]
  · refine ⟨_, rfl, ?_⟩
    rw [State.writeCommand_collecting collecting, State.takeData]
    have last : remaining ≤ 1 ↔ remaining = 1 := by omega
    simp only [last]
    split
    · exact State.enqueueCommand_taken _ privilege rfl
    · rfl
  · rw [State.writeCommand_discard discard]
    have last : remaining ≤ 1 ↔ remaining = 1 := by omega
    simp only [last]
    rfl

/-- Settles O33: the unknown numbers of both paths, then the supervisor commands with and without a grant. -/
theorem refusedAtTaking : Obligations.RefusedAtTaking := by
  refine ⟨fun s c powered head mayTake unknown => ?_, fun s c powered command empty unknown => ?_, fun s c => ?_⟩
  · exact ⟨_, exec_unknownCommand_host powered head mayTake unknown,
      State.answerTaken_answers _ (State.mayTake_iff.mp mayTake).1, State.answerTaken_rest _⟩
  · exact exec_unknownCommand_maint powered command empty unknown
  · simp only [List.forall_mem_cons]
    exact ⟨fun taken user => taken.refused (congrArg Host.Outcome.next (taken.runSupervisor_user user sdfOperation)),
      fun taken user => taken.refused (congrArg Host.Outcome.next (taken.runSupervisor_user user tenOperation)),
      fun taken user => taken.refused (congrArg Host.Outcome.next (taken.runSupervisor_user user tdsOperation)),
      fun taken user => taken.refused (congrArg Host.Outcome.next (taken.runAtTaking_user rfl user sprEffect)),
      fun taken user => taken.refused (congrArg Host.Outcome.next (taken.runAtTaking_user rfl user srvEffect)),
      fun taken user => taken.refused (congrArg Host.Outcome.next (taken.runAtTaking_user rfl user rvsEffect)),
      fun taken user => taken.refused (congrArg Host.Outcome.next (taken.runAtTaking_user rfl user tcfEffect)),
      fun taken user => taken.refused (congrArg Host.Outcome.next (taken.runAtTaking_user rfl user tstEffect)),
      fun taken user => taken.refused (congrArg Host.Outcome.next (taken.runAtTaking_user rfl user tspEffect)),
      fun _ mem => absurd mem List.not_mem_nil⟩

end

section
/-!
The commands answered at their taking (R141, R142): reserve, violation status and the timer commands, an equation per
case (R103 to R105, R173, R177).
-/
namespace Sys2Proof.Machine
section
variable {s u : State} {c : HostCommand}

/-! ### The answer beside an effect -/

/-- An effect that leaves the Host Port and the engine alone, and then the answer. -/
theorem State.answerTaken_answers_of (idle : s.hostHand = none) (host : u.host = s.host)
    (hand : u.hostHand = s.hostHand) {r : Response} :
    AnsweredAtTaking r s (u.answerTaken r) := by
  have answers := State.answerTaken_answers (s := u) r (hand.trans idle)
  unfold AnsweredAtTaking at *
  rwa [host] at answers

theorem State.answerTaken_violations (r : Response) : (s.answerTaken r).violations = s.violations := by
  have rest := congrArg State.violations (State.answerTaken_rest (s := s) r)
  exact rest

/-! ### [SRV] (R173) -/

theorem srvEffect_badField {d : Command} (above : 8 < d.reserve) : srvEffect d s = (s, d.reply .badField) :=
  if_pos above

theorem srvEffect_conflict {d : Command} (inRange : ¬ 8 < d.reserve) (conflict : 16 - d.reserve < s.normalQueued) :
    srvEffect d s = (s, d.reply .reserveConflict) := by
  rw [srvEffect, if_neg inRange]
  exact if_pos conflict

theorem srvEffect_set {d : Command} (inRange : ¬ 8 < d.reserve) (fits : ¬ 16 - d.reserve < s.normalQueued) :
    srvEffect d s = ({ s with lookup := { s.lookup with reserve := d.reserve } }, d.reply .ok) := by
  rw [srvEffect, if_neg inRange]
  exact if_neg fits

/-! ### [RVS] (R177, R183) -/

theorem Violation.recordWord_bits (v : Violation) :
    v.recordWord.getLsbD 0 = true ∧ v.recordWord.getLsbD 4 = v.outcome.watched? ∧
    v.recordWord.getLsbD 5 = v.overrun := by
  unfold Violation.recordWord
  refine ⟨?_, ?_, ?_⟩ <;> (repeat rw [BitVec.getLsbD_append]) <;> simp

theorem Violation.recordWord_fields (v : Violation) :
    v.recordWord.extractLsb' 8 6 = v.lengthCode ∧ v.recordWord.extractLsb' 16 2 = v.kind.bits ∧
    v.recordWord.extractLsb' 20 2 = v.source.bits.1 ∧ v.recordWord.extractLsb' 24 6 = v.source.bits.2 := by
  unfold Violation.recordWord
  refine ⟨?_, ?_, ?_, ?_⟩ <;> (repeat rw [extractLsb'_append_field]) <;> simp

theorem Violation.recordWord_gaps (v : Violation) :
    v.recordWord.extractLsb' 1 3 = 0#3 ∧ v.recordWord.extractLsb' 6 2 = 0#2 ∧
    v.recordWord.extractLsb' 14 2 = 0#2 ∧ v.recordWord.extractLsb' 18 2 = 0#2 ∧
    v.recordWord.extractLsb' 22 2 = 0#2 ∧ v.recordWord.extractLsb' 30 2 = 0#2 := by
  unfold Violation.recordWord
  refine ⟨?_, ?_, ?_, ?_, ?_, ?_⟩ <;> (repeat rw [extractLsb'_append_field]) <;> simp

/-- The record word of a HELD record, field by field (R183). -/
theorem Violation.recordWord_in (v : Violation) : ViolationIn v v.recordWord := by
  obtain ⟨held, watched, overrun⟩ := v.recordWord_bits
  obtain ⟨length, kind, source, slot⟩ := v.recordWord_fields
  have outcome : v.outcome.watched? = (v.outcome == .watched) := by cases v.outcome <;> rfl
  refine ⟨held, watched.trans outcome, overrun, length, kind, ?_, v.recordWord_gaps⟩
  rw [source, slot]
  cases v.source <;> exact ⟨rfl, rfl⟩

/-! ### [TCF], [TST] and [TSP] (R103 to R105) -/

/-- The prescale codes, of which those above 4 are reserved (R103, R182). -/
theorem Command.prescale_eq (d : Command) :
    d.prescale = if 4 < (d.operand.extractLsb' 0 3).toNat then none
      else some (match (d.operand.extractLsb' 0 3).toNat with
        | 0 => .off | 1 => .by1 | 2 => .by16 | 3 => .by256 | _ => .by4096) := by
  unfold Command.prescale
  generalize d.operand.extractLsb' 0 3 = code
  revert code
  decide

theorem tcfEffect_running {d : Command} (running : s.timer.state = .running) :
    tcfEffect d s = (s, d.reply .busy) := by
  rw [tcfEffect, running]

theorem tcfEffect_badField {d : Command} (stopped : s.timer.state = .stopped)
    (bad : d.period = 0 ∨ d.prescale = none) : tcfEffect d s = (s, d.reply .badField) := by
  rw [tcfEffect, stopped]
  cases code : d.prescale with
  | none => rfl
  | some prescale => exact if_pos (bad.resolve_right (by simp [code]))

theorem tcfEffect_set {d : Command} {prescale : Prescale} (stopped : s.timer.state = .stopped)
    (period : d.period ≠ 0) (code : d.prescale = some prescale) :
    tcfEffect d s = ({ s with timer := { s.timer with
      prescale := prescale, period := d.period, drainLimit := d.drainLimit } }, d.reply .ok) := by
  rw [tcfEffect, stopped, code]
  exact if_neg period

theorem tstEffect_eq (d : Command) :
    tstEffect d s = ({ s with timer := match s.timer.state with
      | .stopped => { s.timer with state := .running, grace := true, prescaleCount := 0, counter := 0 }
      | .running => s.timer }, d.reply .ok) := by
  unfold tstEffect
  cases s.timer.state <;> rfl

end
end Sys2Proof.Machine
end

section
open Sys2Proof Sys2Proof.Machine

/-- Settles O35, by the two checks in their order. -/
theorem setReserve : Obligations.SetReserve := by
  intro s c taken supervisor
  refine ⟨_, congrArg Host.Outcome.next (taken.runAtTaking_supervisor supervisor srvEffect), ?_⟩
  change (if 8 < c.command.reserve then _ else if 16 - c.command.reserve < s.normalQueued then _ else _) ∧ _
  by_cases above : 8 < c.command.reserve
  · rw [if_pos above, srvEffect_badField above]
    exact ⟨⟨State.answerTaken_answers _ taken.hand, (s.answerTaken_only _).lookup⟩,
      congrArg (fun v : State => { v with lookup := s.lookup }) (State.answerTaken_rest _)⟩
  rw [if_neg above]
  by_cases conflict : 16 - c.command.reserve < s.normalQueued
  · rw [if_pos conflict, srvEffect_conflict above conflict]
    exact ⟨⟨State.answerTaken_answers _ taken.hand, (s.answerTaken_only _).lookup⟩,
      congrArg (fun v : State => { v with lookup := s.lookup }) (State.answerTaken_rest _)⟩
  · rw [if_neg conflict, srvEffect_set above conflict]
    exact ⟨⟨State.answerTaken_answers_of taken.hand (by rfl) (by rfl), (State.answerTaken_only _ _).lookup⟩,
      congrArg (fun v : State => { v with lookup := s.lookup }) (State.answerTaken_rest _)⟩

/-- Settles O36: the two words of the named record, which is then EMPTY. -/
theorem readViolation : Obligations.ReadViolation := by
  intro s c r taken supervisor named
  obtain rfl := (c.command.eq_requester_iff r).mpr named
  have run : exec .rvs s = .next ((s.setViolation c.command.requester none).answerTaken (rvsEffect c.command s).2) :=
    congrArg Host.Outcome.next (taken.runAtTaking_supervisor supervisor rvsEffect)
  have emptied : ∀ q, State.violation
      ((s.setViolation c.command.requester none).answerTaken (rvsEffect c.command s).2) q =
      if q = c.command.requester then none else s.violation q := fun q => by
    rw [State.violation, State.answerTaken_violations]
    exact s.setViolation_violation _ _ q
  have rest : ∀ answer, { (s.setViolation c.command.requester none).answerTaken answer with
      host := s.host, hostHand := s.hostHand, violations := s.violations } = s := fun answer =>
    congrArg (fun v : State => { v with violations := s.violations }) (State.answerTaken_rest answer)
  cases record : s.violation c.command.requester with
  | none =>
    refine ⟨_, 0#32, 0#32, run, ?_, ⟨rfl, rfl⟩, emptied, rest _⟩
    rw [rvsEffect, record]
    exact State.answerTaken_answers_of taken.hand (by rfl) (by rfl)
  | some v =>
    refine ⟨_, v.recordWord, v.address, run, ?_, ⟨v.recordWord_in, rfl⟩, emptied, rest _⟩
    rw [rvsEffect, record]
    exact State.answerTaken_answers_of taken.hand (by rfl) (by rfl)

/-- Settles O37, command by command; [TCF] by its three checks. -/
theorem timerCommands : Obligations.TimerCommands := by
  have rest : ∀ (s : State) (timer : LeaseTimer) (answer : Response),
      { State.answerTaken { s with timer := timer } answer with
        host := s.host, hostHand := s.hostHand, timer := s.timer } = s := fun s timer answer =>
    congrArg (fun v : State => { v with timer := s.timer }) (State.answerTaken_rest answer)
  refine ⟨fun s c taken supervisor => ?_, fun s c supervisor => ⟨fun taken => ?_, fun taken => ?_⟩⟩
  · refine ⟨_, congrArg Host.Outcome.next (taken.runAtTaking_supervisor supervisor tcfEffect), ?_⟩
    change (if s.timer.state = .running then _
      else if c.command.period = 0 ∨ 4 < (c.command.operand.extractLsb' 0 3).toNat then _ else _) ∧ _
    cases timer : s.timer.state with
    | running =>
      rw [if_pos rfl, tcfEffect_running timer]
      exact ⟨⟨State.answerTaken_answers _ taken.hand, (s.answerTaken_only _).timer⟩, rest s s.timer _⟩
    | stopped =>
      rw [if_neg nofun]
      have code := c.command.prescale_eq
      by_cases bad : c.command.period = 0 ∨ 4 < (c.command.operand.extractLsb' 0 3).toNat
      · rw [if_pos bad, tcfEffect_badField timer (bad.imp_right fun reserved => code.trans (if_pos reserved))]
        exact ⟨⟨State.answerTaken_answers _ taken.hand, (s.answerTaken_only _).timer⟩, rest s s.timer _⟩
      · rw [if_neg bad]
        obtain ⟨period, inRange⟩ := not_or.mp bad
        rw [tcfEffect_set timer period (code.trans (if_neg inRange))]
        exact ⟨⟨State.answerTaken_answers_of taken.hand (by rfl) (by rfl), (State.answerTaken_only _ _).timer⟩, rest s _ _⟩
  · refine ⟨_, congrArg Host.Outcome.next (taken.runAtTaking_supervisor supervisor tstEffect), ?_⟩
    rw [tstEffect_eq]
    exact ⟨State.answerTaken_answers_of taken.hand (by rfl) (by rfl), (State.answerTaken_only _ _).timer, rest s _ _⟩
  · refine ⟨_, congrArg Host.Outcome.next (taken.runAtTaking_supervisor supervisor tspEffect), ?_⟩
    exact ⟨State.answerTaken_answers_of taken.hand (by rfl) (by rfl), (State.answerTaken_only _ _).timer, rest s _ _⟩

end

section
/-!
Responses read, owed responses that enter, the event registers, the port reset, and the frames and resets of the
Maintenance Link (R145, R147, R150, R152, R156, R158, R161, R167).
-/
namespace Sys2Proof.Machine
section
variable {s t : State}

/-! ### The header word (R183) -/

theorem Response.header_of (r : Response) : HeaderOf r r.header := by
  unfold HeaderOf Response.header
  refine ⟨?_, ?_, ?_, ?_, ?_, ?_⟩ <;> (repeat rw [extractLsb'_append_field]) <;>
    simp [Response.wordCount, nibbleBits]

theorem State.hostRead_response_of_powered (powered : s.pornLow = false) :
    s.hostRead .response = s.responseWord := by
  rw [State.hostRead, powered]
  rfl

/-- The word that a read of RESPONSE returns beside a head response (R145). -/
theorem State.responseWord_of_head {r : Response} {rest : List Response} (queue : s.host.responses = r :: rest) :
    s.responseWord = r.words.getD s.host.wordsRead 0#32 := by
  rw [State.responseWord, queue]

theorem exec_responseRead_of_powered (powered : s.pornLow = false) :
    exec .responseRead s = .next (s.advanceResponse.putReadData s.responseWord) := by
  change Host.Outcome.next ((s.whilePowered s.advanceResponse).putReadData (s.hostRead .response)) = _
  rw [s.whilePowered_powered _ powered, State.hostRead_response_of_powered powered]

/-! ### Owed responses that enter (R63, R147, R161) -/

/-- The lowest waiting owed response enters where there is room. -/
theorem State.admitOwed_entered {party : Party} {n : Slot} {r : Response} (lowest : LowestWaits s party n r)
    (room : s.roomFor party = true) :
    OnlyWindow n { s.win n with owed := none } s (s.admitOwed party) ∧ Placed party r s (s.admitOwed party) := by
  rw [s.admitOwed_enters party n r lowest room]
  refine ⟨OnlyWindow.of_table (by rw [State.place_table]; rfl), ?_⟩
  cases party <;> exact ⟨rfl, rfl⟩

/-- An owed response that enters the response register changes its window and the register alone. -/
theorem State.admitOwed_maint_rest : { s.admitOwed .maint with maint := s.maint, table := s.table } = s := by
  obtain h | ⟨n, r, -, -, h⟩ := s.admitOwed_cases .maint <;> rw [h]
  rfl

/-- The engine's next command is read off the queues, the hand and the windows, which a bus word leaves alone. -/
theorem EngineMovesOn.putReadData {hand : Option HostCommand} {queued : List HostCommand}
    (moves : EngineMovesOn hand queued t) (word : Word) : EngineMovesOn hand queued (t.putReadData word) := by
  unfold EngineMovesOn at *
  exact moves

/-- The Host Port beside the bus word and the Command Queue. -/
theorem State.putReadData_host_of {h : HostPort} {word : Word} (host : t.host = { h with commands := t.host.commands }) :
    (t.putReadData word).host = { h with
      readData := (t.putReadData word).host.readData, commands := (t.putReadData word).host.commands } :=
  congrArg (fun g : HostPort => { g with readData := word }) host

/-- After an owed response has been offered to the host, the engine moves on with the queue and the hand it had. -/
theorem State.admitOwed_movesOn :
    EngineMovesOn s.hostHand s.host.commands (s.admitOwed .host).takeInHand := by
  have moves := (s.admitOwed .host).takeInHand_movesOn
  rwa [s.admitOwed_hostHand .host, s.admitOwed_host .host] at moves

/-- Offering to the host and then taking in hand leaves the rest of the state. -/
theorem State.admitOwed_takeInHand_rest :
    { (s.admitOwed .host).takeInHand with host := s.host, hostHand := s.hostHand, table := s.table } = s := by
  obtain h | ⟨n, r, -, -, h⟩ := s.admitOwed_cases .host <;> rw [h]
  · exact congrArg (fun u : State => { u with table := s.table }) s.takeInHand_rest
  · exact congrArg (fun u : State => { u with host := s.host, table := s.table })
      ((s.setWin n { s.win n with owed := none }).place .host r).takeInHand_rest

theorem exec_owedResponse_of_powered (powered : s.pornLow = false) :
    exec (.owedResponse .host) s = .next (s.admitOwed .host).takeInHand ∧
    exec (.owedResponse .maint) s = .next (s.admitOwed .maint) := by
  constructor
  · change Host.Outcome.next (s.whilePowered (s.admitOwed .host).takeInHand) = _
    rw [s.whilePowered_powered _ powered]
  · change Host.Outcome.next (s.whilePowered (s.admitOwed .maint)) = _
    rw [s.whilePowered_powered _ powered]

/-! ### The event registers and the port reset (R150, R152) -/

theorem exec_clearSticky_of_powered (powered : s.pornLow = false) (word : Word) :
    ∀ i ∈ [Instr.clearDrainForced word, .clearProtocol word, .clearOwnership word],
      exec i s = .next (s.clearSticky word) := by
  have run : Host.Outcome.next (s.whilePowered (s.clearSticky word)) =
      (Host.Outcome.next (s.clearSticky word) : Host.Outcome State Fault Refusal) := by
    rw [s.whilePowered_powered _ powered]
  simp only [List.forall_mem_cons]
  exact ⟨run, run, run, fun _ mem => absurd mem List.not_mem_nil⟩

/-- Bit by bit, a kind written with 1 is cleared (R150). -/
theorem State.clearSticky_eq (word : Word) :
    s.clearSticky word = { s with host := { s.host with
      drainForced := if word.getLsbD 3 = true then false else s.host.drainForced
      protocolEvent := if word.getLsbD 4 = true then false else s.host.protocolEvent
      protocolStatus := if word.getLsbD 4 = true then none else s.host.protocolStatus
      ownership := if word.getLsbD 5 = true then false else s.host.ownership } } := by
  unfold State.clearSticky
  cases word.getLsbD 3 <;> cases word.getLsbD 4 <;> cases word.getLsbD 5 <;> simp

/-- A word that names no sticky kind clears none. -/
theorem State.clearSticky_of_none {word : Word} (sticky : word.extractLsb' 3 3 = 0#3) : s.clearSticky word = s := by
  have bit := (extractLsb'_eq_zero_iff word 3 3).mp sticky
  rw [State.clearSticky_eq, bit 3 le_rfl (by decide), bit 4 (by decide) (by decide), bit 5 (by decide) (by decide)]
  rfl

theorem Window.dropOwed_eq (w : Window) (party : Party) :
    w.dropOwed party = if w.owed.any (fun o => o.party == party) = true then { w with owed := none } else w := by
  unfold Window.dropOwed
  cases w.owed with
  | none => rfl
  | some o => by_cases mine : o.party = party <;> simp [mine]

theorem State.whilePowered_self : s.whilePowered s = s := ite_self s

/-- The writes that the register window ignores (R133, R184, log entry 13). -/
theorem State.hostWrite_of_ignored {register : HostRegister} {privilege : Privilege} {word : Word}
    (ignored : register ∈ [HostRegister.response, .status, .none18, .none1C] ∨
      (register ≠ .command ∧ privilege = .user) ∨
      (register = .eventPending ∧ word.extractLsb' 3 3 = 0#3) ∨
      (register = .portControl ∧ word.getLsbD 0 = false)) : s.hostWrite register privilege word = s := by
  obtain unwritten | ⟨notCommand, rfl⟩ | ⟨rfl, sticky⟩ | ⟨rfl, off⟩ := ignored
  · simp only [List.mem_cons, List.not_mem_nil, or_false] at unwritten
    obtain rfl | rfl | rfl | rfl := unwritten <;> exact State.whilePowered_self
  · cases register with
    | command => exact absurd rfl notCommand
    | _ => exact State.whilePowered_self
  · cases privilege with
    | user => exact State.whilePowered_self
    | supervisor =>
      change s.whilePowered (s.clearSticky word) = s
      rw [State.clearSticky_of_none sticky, State.whilePowered_self]
  · cases privilege with
    | user => exact State.whilePowered_self
    | supervisor =>
      change s.whilePowered (if word.getLsbD 0 = true then s.resetPort else s) = s
      rw [if_neg (off ▸ Bool.false_ne_true), State.whilePowered_self]

theorem exec_portReset_of_powered (powered : s.pornLow = false) :
    exec .portReset s = .next s.portEmptied.settleYield := by
  rw [← s.resetPort_eq]
  change Host.Outcome.next (s.whilePowered s.resetPort) = _
  rw [s.whilePowered_powered _ powered]

theorem exec_linkReset : exec .linkReset s = .next s.linkEmptied.settleYield := by
  rw [← s.resetLink_eq]
  rfl

/-! ### The Maintenance Link (R156, R158) -/

theorem exec_commandFrame_of_powered (powered : s.pornLow = false) (frame : Frame) :
    exec (.commandFrame frame) s = .next (s.frameArrives frame) := by
  change Host.Outcome.next (s.whilePowered (s.frameArrives frame)) = _
  rw [s.whilePowered_powered _ powered]

/-- A frame is accepted by two empty registers where no owed response waits (R156). -/
theorem State.frameAccepted_iff :
    s.frameAccepted = true ↔
      s.maint.command = none ∧ s.maint.response = none ∧ ∀ n : Slot, (s.win n).waitingResponse .maint = none := by
  simp only [State.frameAccepted, Bool.and_eq_true, Option.isNone_iff_eq_none, State.lowestWaiting_none, and_assoc]

/-- The state after a frame is accepted and before an unknown number is answered (R156). -/
def State.frameHeld (s : State) (frame : Frame) : State :=
  { s with maint := { s.maint with command := some (Command.ofFrame frame), busy := false } }

theorem State.frameArrives_accepted (frame : Frame) (accepted : s.frameAccepted = true) :
    s.frameArrives frame = (s.frameHeld frame).answerUnknownTool := if_pos accepted

theorem State.frameArrives_refused (frame : Frame) (refused : ¬ s.frameAccepted = true) :
    s.frameArrives frame = { s with maint := { s.maint with busy := true } } := if_neg refused

theorem exec_responseRegisterRead_of_powered (powered : s.pornLow = false) :
    exec .responseRegisterRead s = .next (s.registerCaptured.admitOwed .maint) := by
  change Host.Outcome.next (if s.pornLow = true then s.captureFree else s.captureResponse) = _
  rw [powered]
  rfl

end
end Sys2Proof.Machine
end

section
open Sys2Proof Sys2Proof.Machine

/-- Settles O38: without a response the empty header, beside one its next word; after the last one the place is
offered and the engine moves on. -/
theorem responseWordRead : Obligations.ResponseWordRead := by
  intro s powered
  rw [exec_responseRead_of_powered powered]
  refine ⟨fun empty => ?_, fun r rest queue sound => ?_⟩
  · obtain ⟨-, stays⟩ | ⟨_, _, queue, -⟩ := s.advanceResponse_cases
    · rw [stays, State.responseWord, empty]
      rfl
    · exact absurd (empty.symm.trans queue) nofun
  have word := State.responseWord_of_head queue
  refine ⟨_, rfl, fun start => ?_, fun k read => ?_, ?_⟩
  · change HeaderOf r s.responseWord
    rw [word, start]
    exact r.header_of
  · change s.responseWord = _
    rw [word, read]
    rfl
  generalize s.responseWord = word
  obtain ⟨none, -⟩ | ⟨_, _, queue', advanced⟩ := s.advanceResponse_cases
  · exact absurd (none.symm.trans queue) nofun
  obtain ⟨rfl, rfl⟩ := List.cons.inj (queue.symm.trans queue')
  obtain ⟨more, advanced⟩ | ⟨last, advanced⟩ := advanced <;> rw [advanced]
  · rw [if_pos more]
    rfl
  rw [if_neg (Nat.not_lt.mpr last)]
  have tail : s.headLeft.host = { s.host with responses := rest, wordsRead := 0 } := by
    rw [State.headLeft, queue, List.tail_cons]
  have room : s.headLeft.roomFor .host = true := by
    have places : s.host.responses.length ≤ 16 := sound.2.2.2.2.1
    rw [queue, List.length_cons] at places
    rw [State.roomFor_iff, State.placesFor, tail]
    exact Nat.sub_pos_of_lt (Nat.lt_of_succ_le places)
  have host := (s.headLeft.admitOwed .host).takeInHand_host
  refine ⟨s.headLeft.admitOwed_movesOn.putReadData word, fun quiet => ?_, fun n q lowest => ?_, ?_⟩
  · rw [s.headLeft.admitOwed_stays .host (.inr quiet)] at host ⊢
    exact ⟨State.putReadData_host_of (host.trans (by rw [tail])), s.headLeft.takeInHand_table⟩
  · obtain ⟨⟨win, items⟩, placed, -⟩ := State.admitOwed_entered (s := s.headLeft) lowest room
    refine ⟨State.putReadData_host_of (host.trans (by rw [placed, tail])), fun m => ?_, ?_⟩
    · exact ((s.headLeft.admitOwed .host).takeInHand_win m).trans (win m)
    · exact items.of_table (s.headLeft.admitOwed .host).takeInHand_table
  · exact congrArg (fun u : State => { u with host := s.host }) s.headLeft.admitOwed_takeInHand_rest

/-- Settles O39, party by party. -/
theorem owedResponseEnters : Obligations.OwedResponseEnters := by
  intro s party powered
  obtain ⟨host, maint⟩ := exec_owedResponse_of_powered powered
  cases party with
  | host =>
    have port := (s.admitOwed .host).takeInHand_host
    have maint' : (s.admitOwed .host).takeInHand.maint = s.maint :=
      (s.admitOwed .host).takeInHand_maint.trans State.admitOwed_host_maint
    refine ⟨_, host, s.admitOwed_movesOn, fun n r lowest room => ?_, fun closed => ?_, ?_⟩
    · obtain ⟨⟨win, items⟩, placed, -⟩ := State.admitOwed_entered lowest room
      refine ⟨⟨fun m => ((s.admitOwed .host).takeInHand_win m).trans (win m),
        items.of_table (s.admitOwed .host).takeInHand_table⟩, port.trans (by rw [placed]), maint'⟩
    · rw [s.admitOwed_stays .host closed] at port ⊢
      exact ⟨s.takeInHand_table, port, s.takeInHand_maint⟩
    · exact congrArg (fun u : State => { u with maint := s.maint }) s.admitOwed_takeInHand_rest
  | maint =>
    refine ⟨_, maint, s.admitOwed_hostHand .maint, fun n r lowest room => ?_, fun closed => ?_, ?_⟩
    · obtain ⟨only, register, port⟩ := State.admitOwed_entered lowest room
      exact ⟨only, register, by rw [port]⟩
    · rw [s.admitOwed_stays .maint closed]
      exact ⟨rfl, rfl, rfl⟩
    · exact congrArg (fun u : State => { u with host := s.host, hostHand := s.hostHand }) State.admitOwed_maint_rest

/-- Settles O40: the three rows are one write, which clears bit by bit. -/
theorem stickyEventsCleared : Obligations.StickyEventsCleared := by
  intro s word powered
  rw [← State.clearSticky_eq]
  exact exec_clearSticky_of_powered powered word

/-- Settles O42: the emptied port first, then the walk yield. -/
theorem portReset : Obligations.PortReset := by
  intro s powered
  obtain ⟨windows, emptied⟩ : ∃ windows, s.portEmptied = { s with
      host := s.host.afterReset, hostHand := none, arbiter := { s.arbiter with hostWait := 0 },
      table := { s.table with windows := windows } } := ⟨_, rfl⟩
  have win := s.portEmptied_win
  refine ⟨_, exec_portReset_of_powered powered, ?_⟩
  generalize s.portEmptied = u at emptied win
  subst emptied
  exact ⟨rfl, rfl, rfl, fun n => (win n).trans ((s.win n).dropOwed_eq .host), ⟨rfl, rfl, rfl, rfl⟩,
    s.settleYield_settled _ rfl, rfl⟩

/-- Settles O43, by what makes the window ignore the write. -/
theorem ignoredWriteChangesNothing : Obligations.IgnoredWriteChangesNothing := by
  intro s register privilege word ignored
  exact congrArg Host.Outcome.next (State.hostWrite_of_ignored ignored)

/-- Settles O59: the emptied link first, then the walk yield. -/
theorem linkReset : Obligations.LinkReset := by
  intro s
  obtain ⟨windows, emptied⟩ : ∃ windows, s.linkEmptied = { s with
      maint := { s.maint with command := none, response := none, busy := false, capture := none },
      table := { s.table with windows := windows } } := ⟨_, rfl⟩
  have win := s.linkEmptied_win
  refine ⟨_, exec_linkReset, ?_⟩
  generalize s.linkEmptied = u at emptied win
  subst emptied
  exact ⟨rfl, fun n => (win n).trans ((s.win n).dropOwed_eq .maint), ⟨rfl, rfl, rfl, rfl⟩,
    s.settleYield_settled _ rfl, rfl⟩

/-- Settles O57: LINKCMD alone brings a frame, which two empty registers and no waiting response accept. -/
theorem commandFrameArrives : Obligations.CommandFrameArrives := by
  refine ⟨fun s frame => ⟨rfl, fun code other => s.linkUpdate_of_ne code frame other⟩, fun s frame powered => ?_⟩
  rw [exec_commandFrame_of_powered powered]
  refine ⟨fun command response quiet => ?_, fun refused => ?_⟩
  · rw [State.frameArrives_accepted frame (State.frameAccepted_iff.mpr ⟨command, response, quiet⟩)]
    by_cases unknown : symOn .maint (frame.header.extractLsb' 24 8) = none
    · rw [State.answerUnknownTool_answers (s := s.frameHeld frame) rfl response unknown, if_pos unknown, if_pos unknown]
      rfl
    · rw [State.answerUnknownTool_keeps (s := s.frameHeld frame) rfl unknown, if_neg unknown, if_neg unknown, ← response]
      rfl
  · have full : ¬ s.frameAccepted = true := by
      rw [State.frameAccepted_iff]
      rintro ⟨command, response, quiet⟩
      obtain held | held | ⟨n, waits⟩ := refused
      · exact held command
      · exact held response
      · exact waits (quiet n)
    rw [State.frameArrives_refused frame full]

/-- Settles O58: LINKRSP alone takes the frame, and the empty register is offered. -/
theorem responseRegisterRead : Obligations.ResponseRegisterRead := by
  refine ⟨fun s => ⟨rfl, fun code other => s.linkCapture_of_ne code other⟩, fun s powered => ?_⟩
  refine ⟨_, s.responseFrame, exec_responseRegisterRead_of_powered powered, ?_, fun quiet => ?_, fun n r lowest => ?_⟩
  · unfold State.responseFrame
    cases s.maint.response with
    | none => rfl
    | some r => exact ⟨r.header_of, rfl, rfl, rfl, rfl⟩
  · exact s.registerCaptured.admitOwed_stays .maint (.inr quiet)
  · obtain ⟨only, register, -⟩ := State.admitOwed_entered (s := s.registerCaptured) lowest rfl
    exact ⟨register, only, congrArg (fun u : State => { u with maint := s.maint })
      (State.admitOwed_maint_rest (s := s.registerCaptured))⟩

end

section
/-!
Power-on reset (R25, R187), the readable registers, the link status and the verdict channel, field by field (R134, R149,
R157, R184 to R186).
-/
namespace Sys2Proof.Machine
section
variable {s : State}

/-! ### The reset state and power-on reset -/

theorem State.reset_win (n : Slot) : State.reset.win n = Window.cleared .host none := by
  simp [State.win, State.reset]

theorem State.reset_use (n : Slot) : State.reset.use n = 0 := by
  simp [State.use, State.reset]

theorem State.reset_countedTickets (n : Slot) : State.reset.countedTickets n = 0 := by
  simp [State.countedTickets, State.ticket, State.reset, Ticket.names]

theorem State.powerOn_win (straps : Straps) (n : Slot) : (s.powerOn straps).win n =
    Window.cleared (if straps.toolPresent = true ∧ 48 ≤ n.val then Party.maint else Party.host) none := by
  simp [State.win, State.powerOn, powerOnTable, powerOnOwner]

theorem State.powerOn_expired (straps : Straps) (n : Slot) : (s.powerOn straps).expired n = false := by
  simp [State.expired, State.powerOn, powerOnTable]

theorem State.powerOn_use (straps : Straps) (n : Slot) : (s.powerOn straps).use n = 0 := by
  simp [State.use, State.powerOn]

theorem State.powerOn_ticket (straps : Straps) (k : TicketNo) : (s.powerOn straps).ticket k = .free := by
  simp [State.ticket, State.powerOn]

theorem State.powerOn_profile (straps : Straps) (r : Requester) :
    (s.powerOn straps).profile r = ⟨true, .user, .normal⟩ := by
  simp [State.profile, State.powerOn]

theorem State.powerOn_violation (straps : Straps) (r : Requester) : (s.powerOn straps).violation r = none := by
  simp [State.violation, State.powerOn]

/-! ### PORn low (R187) -/

theorem State.hostRead_of_low (low : s.pornLow = true) (register : HostRegister) : s.hostRead register = 0#32 :=
  if_pos low

theorem State.hostWrite_of_low (low : s.pornLow = true) (register : HostRegister) (privilege : Privilege)
    (word : Word) : s.hostWrite register privilege word = s := s.whilePowered_low _ low

/-! ### Words with positions of no field -/

/-- A word that reads as 0 in gaps that cover a mask has no 1 under the mask. -/
theorem and_eq_zero_of_gaps {word mask : Word} (gaps : List (Nat × Nat))
    (covered : ∀ i : Fin 32, mask.getLsbD i = true → ∃ gap ∈ gaps, gap.1 ≤ i ∧ i < gap.1 + gap.2)
    (zero : ∀ gap ∈ gaps, word.extractLsb' gap.1 gap.2 = 0#gap.2) : word &&& mask = 0#32 := by
  rw [and_eq_zero_iff]
  intro i inside bit
  obtain ⟨gap, mem, low, high⟩ := covered ⟨i, inside⟩ bit
  exact (extractLsb'_eq_zero_iff word gap.1 gap.2).mp (zero gap mem) i low high

/-! ### STATUS (R134, R184) -/

theorem State.statusWord_fields :
    s.statusWord.extractLsb' 0 4 = BitVec.ofNat 4 s.commandPlacesFree ∧
    s.statusWord.extractLsb' 8 5 = BitVec.ofNat 5 s.host.responses.length ∧
    s.statusWord.extractLsb' 16 7 = BitVec.ofNat 7 (s.waitingCount .host) ∧
    s.statusWord.extractLsb' 24 2 = (match s.host.assembler with
      | .idle => 0#2 | .collecting _ _ => 1#2 | .discard _ => 2#2) ∧
    s.statusWord.extractLsb' 28 3 = (match s.host.assembler with
      | .idle => 0#3 | .collecting _ remaining => BitVec.ofNat 3 remaining
      | .discard remaining => BitVec.ofNat 3 remaining) := by
  unfold State.statusWord
  refine ⟨?_, ?_, ?_, ?_, ?_⟩ <;> (repeat rw [extractLsb'_append_field]) <;> simp <;>
    cases s.host.assembler <;> rfl

theorem State.statusWord_gaps : s.statusWord &&& 0x8C80E0F0#32 = 0#32 := by
  refine and_eq_zero_of_gaps [(4, 4), (13, 3), (23, 1), (26, 2), (31, 1)] (by decide) ?_
  simp only [List.forall_mem_cons]
  unfold State.statusWord
  refine ⟨?_, ?_, ?_, ?_, ?_, fun _ mem => absurd mem List.not_mem_nil⟩ <;>
    (repeat rw [extractLsb'_append_field]) <;> simp

/-- How many owed responses wait, in the words of the window record (R134, R157). -/
theorem State.waitingCount_eq (party : Party) :
    s.waitingCount party = allSlots.countP fun n =>
      (s.win n).isFree && (s.win n).owed.any fun o => o.party == party && o.outcome.isSome := by
  refine List.countP_congr fun n _ => ?_
  rw [Option.isSome_iff_exists]
  simp only [Window.waitingResponse_eq_some_iff, Bool.and_eq_true, Option.any_eq_true]
  constructor
  · rintro ⟨_, free, tag, outcome, owed, rfl⟩
    exact ⟨free, _, owed, beq_self_eq_true party, rfl⟩
  · rintro ⟨free, ⟨p, tag, outcome⟩, owed, mine, done⟩
    obtain ⟨outcome, rfl⟩ := Option.isSome_iff_exists.mp done
    obtain rfl := beq_iff_eq.mp mine
    exact ⟨_, free, tag, outcome, owed, rfl⟩

/-- Seven bits hold the number of waiting responses, at most one of each slot. -/
theorem State.waitingCount_field (party : Party) :
    (BitVec.ofNat 7 (s.waitingCount party)).toNat = s.waitingCount party := by
  have atMost : s.waitingCount party ≤ 64 := List.countP_le_length.trans (List.length_finRange (n := 64)).le
  exact Nat.mod_eq_of_lt (by omega)

/-! ### EVENT PENDING and EVENT ENABLE (R149, R184) -/

theorem State.eventPendingWord_bit {k : Nat} (low : k < 6) :
    s.eventPendingWord.getLsbD k = s.pendingBits.getLsbD k := by
  unfold State.eventPendingWord
  rw [BitVec.getLsbD_append, if_pos low]

theorem State.eventPendingWord_fields :
    s.eventPendingWord.extractLsb' 16 3 = (protocolBits s.host.protocolStatus).2 ∧
    s.eventPendingWord.extractLsb' 20 4 = (protocolBits s.host.protocolStatus).1 := by
  unfold State.eventPendingWord
  refine ⟨?_, ?_⟩ <;> (repeat rw [extractLsb'_append_field]) <;> simp

theorem State.eventPendingWord_gaps : s.eventPendingWord &&& 0xFF08FFC0#32 = 0#32 := by
  refine and_eq_zero_of_gaps [(6, 10), (19, 1), (24, 8)] (by decide) ?_
  simp only [List.forall_mem_cons]
  unfold State.eventPendingWord
  refine ⟨?_, ?_, ?_, fun _ mem => absurd mem List.not_mem_nil⟩ <;>
    (repeat rw [extractLsb'_append_field]) <;> simp

theorem State.eventEnableWord_fields :
    s.eventEnableWord.extractLsb' 0 6 = s.host.enables ∧ s.eventEnableWord.extractLsb' 6 26 = 0#26 :=
  ⟨BitVec.extractLsb'_append_eq_right, BitVec.extractLsb'_append_eq_left⟩

/-! ### The link status (R157, R186) -/

theorem State.linkStatusWord_bits :
    s.linkStatusWord.getLsbD 0 = s.maint.command.isSome ∧ s.linkStatusWord.getLsbD 1 = s.maint.response.isSome ∧
    s.linkStatusWord.getLsbD 2 = s.maint.busy ∧ s.linkStatusWord.getLsbD 3 = s.maint.toolPresent := by
  unfold State.linkStatusWord
  refine ⟨?_, ?_, ?_, ?_⟩ <;> (repeat rw [BitVec.getLsbD_append]) <;> simp

theorem State.linkStatusWord_field :
    s.linkStatusWord.extractLsb' 8 7 = BitVec.ofNat 7 (s.waitingCount .maint) := by
  unfold State.linkStatusWord
  (repeat rw [extractLsb'_append_field])
  simp

theorem State.linkStatusWord_gaps : s.linkStatusWord &&& 0xFFFF80F0#32 = 0#32 := by
  refine and_eq_zero_of_gaps [(4, 4), (15, 17)] (by decide) ?_
  simp only [List.forall_mem_cons]
  unfold State.linkStatusWord
  refine ⟨?_, ?_, fun _ mem => absurd mem List.not_mem_nil⟩ <;>
    (repeat rw [extractLsb'_append_field]) <;> simp

/-! ### The verdict channel (R185) -/

theorem sourceBits_on (source : Option Source) : SourceOn source (sourceBits source).1 (sourceBits source).2 := by
  unfold SourceOn
  split <;> exact ⟨rfl, rfl⟩

theorem Attributes.bits_bits (attrs : Attributes) :
    attrs.bits.getLsbD 6 = attrs.burst ∧ attrs.bits.getLsbD 7 = attrs.byteOrder.big? ∧
    attrs.bits.getLsbD 8 = attrs.cacheable := by
  unfold Attributes.bits
  refine ⟨?_, ?_, ?_⟩ <;> (repeat rw [BitVec.getLsbD_append]) <;> simp

theorem Attributes.bits_fields (attrs : Attributes) :
    attrs.bits.extractLsb' 0 2 = attrs.width.bits ∧ attrs.bits.extractLsb' 2 4 = attrs.waitProfile := by
  unfold Attributes.bits
  refine ⟨?_, ?_⟩ <;> (repeat rw [extractLsb'_append_field]) <;> simp

theorem Attributes.bits_on (attrs : Attributes) : AttributesOn attrs attrs.bits := by
  obtain ⟨burst, order, cacheable⟩ := attrs.bits_bits
  obtain ⟨width, wait⟩ := attrs.bits_fields
  have big : attrs.byteOrder.big? = (attrs.byteOrder == .big) := by cases attrs.byteOrder <;> rfl
  exact ⟨width, wait, burst, order.trans big, cacheable⟩

theorem Verdict.bundle_ticketOn (v : Verdict) : TicketOn v.answer.ticket v.bundle.tkv v.bundle.tkt := by
  unfold TicketOn Verdict.bundle
  cases v.answer.ticket <;> exact ⟨rfl, rfl⟩

end
end Sys2Proof.Machine
end

section
open Sys2Proof Sys2Proof.Machine

/-- Settles O2, invariant by invariant: every slot is FREE and cleared, every ticket free, every queue empty. -/
theorem resetIsSound : Obligations.ResetIsSound := by
  have quiet : ∀ n party, (State.reset.win n).waitingResponse party = none := fun n party =>
    Window.waitingResponse_of_owed_none (by rw [State.reset_win]; rfl) party
  refine ⟨fun n => ?_, fun n => ⟨?_, fun _ => State.reset_use n, fun draining => ?_⟩, State.queuesSound_iff.mpr
    ⟨?_, ⟨Nat.zero_le _, Nat.zero_le _⟩, ⟨Nat.zero_le _, rfl⟩, fun party _ => ?_, nofun⟩,
    ⟨.refl _, List.nodup_nil⟩, ⟨by decide, by decide, rfl, rfl⟩, fun _ => rfl, fun n m t names => ?_⟩
  · rw [State.reset_win]
    exact Window.cleared_sound _ _ nofun
  · rw [State.reset_use, State.reset_countedTickets]
  · rw [State.reset_win] at draining
    cases draining
  · exact ⟨by decide, by decide, by decide, by decide⟩
  · exact (State.lowestWaiting_none State.reset party).mpr (quiet · party)
  · rw [State.reset_win] at names
    cases names

/-- Settles O10: a field each, the slots, tickets, profiles and records for every number. -/
theorem powerOnValues : Obligations.PowerOnValues := by
  intro straps s
  refine ⟨_, rfl, fun n => ⟨State.powerOn_win straps n, State.powerOn_expired straps n, State.powerOn_use straps n⟩,
    rfl, rfl, rfl, BusWidth.ofBits_bits straps.width, rfl, rfl, rfl, rfl, rfl, State.powerOn_ticket straps, rfl, rfl,
    rfl, rfl, fun r => ⟨State.powerOn_profile straps r, State.powerOn_violation straps r⟩,
    rfl, rfl, rfl, rfl, rfl, rfl, rfl, rfl, rfl, rfl, rfl, rfl, rfl, rfl, rfl⟩

/-- Settles O11: the outputs by the conditions they are driven under, the ports by their first test. -/
theorem pornLowHoldsThePart : Obligations.PornLowHoldsThePart := by
  refine ⟨fun s => ⟨_, rfl, rfl, rfl⟩, fun s low => ?_⟩
  have ignored := fun register privilege word =>
    congrArg (Host.Outcome.next (φ := Fault) (ρ := Refusal)) (State.hostWrite_of_low low register privilege word)
  refine ⟨by simp [State.requestReady, low], by simp [State.completionReady, low], by simp [State.verdictValid, low],
    by simp [State.int, low], State.hostRead_of_low low, ?_, ignored _ _ _, fun privilege register word frame => ?_⟩
  · change Host.Outcome.next ((s.whilePowered s.advanceResponse).putReadData (s.hostRead .response)) = _
    rw [s.whilePowered_low _ low, State.hostRead_of_low low]
    rfl
  · simp only [List.forall_mem_cons]
    exact ⟨ignored _ _ _, ignored _ _ _, ignored _ _ _, ignored _ _ _, ignored _ _ _, ignored _ _ _,
      congrArg Host.Outcome.next (s.whilePowered_low _ low), fun _ mem => absurd mem List.not_mem_nil⟩

/-- Settles O44: the registers of the host, the link status and the verdict channel, each by its fields. -/
theorem registersShowTheState : Obligations.RegistersShowTheState := by
  refine ⟨fun s powered sound => ?_, fun s => ?_, fun r tag answer => ⟨rfl, rfl, ?_⟩⟩
  · have read : ∀ register, s.hostRead register = match register with
        | .command | .portControl | .none18 | .none1C => 0#32
        | .response => s.responseWord
        | .status => s.statusWord
        | .eventPending => s.eventPendingWord
        | .eventEnable => s.eventEnableWord := fun register => if_neg (powered ▸ Bool.false_ne_true)
    refine ⟨?_, ?_, ?_, ?_⟩
    · simp only [List.forall_mem_cons]
      exact ⟨read _, read _, read _, read _, fun _ mem => absurd mem List.not_mem_nil⟩
    · rw [read]
      obtain ⟨free, responses, waiting, assembler, remaining⟩ := s.statusWord_fields
      obtain ⟨-, -, -, -, places, commands, -⟩ := sound
      refine ⟨?_, ?_, ?_, assembler, remaining, s.statusWord_gaps⟩
      · rw [free, BitVec.toNat_ofNat, s.commandPlacesFree_eq]
        omega
      · rw [responses, BitVec.toNat_ofNat]
        omega
      · rw [waiting, State.waitingCount_field, State.waitingCount_eq]
    · rw [read]
      obtain ⟨response, expiry, violation, drainForced, protocol, ownership⟩ := s.pendingBits_getLsbD
      obtain ⟨kind, requester⟩ := s.eventPendingWord_fields
      refine ⟨?_, ?_, ?_, ?_, ?_, ?_, ?_, s.eventPendingWord_gaps⟩
      · rw [State.eventPendingWord_bit (by decide), response, State.responsePending_iff]
      · rw [State.eventPendingWord_bit (by decide), expiry, State.expiryPending_iff]
      · rw [State.eventPendingWord_bit (by decide), violation, State.violationPending_iff]
      · rw [State.eventPendingWord_bit (by decide), drainForced]
      · rw [State.eventPendingWord_bit (by decide), protocol]
      · rw [State.eventPendingWord_bit (by decide), ownership]
      · rw [kind, requester]
        split <;> next status => rw [status]; exact ⟨rfl, rfl⟩
    · rw [read]
      exact s.eventEnableWord_fields
  · obtain ⟨command, response, busy, toolPresent⟩ := s.linkStatusWord_bits
    refine ⟨?_, ?_, busy, toolPresent, ?_, s.linkStatusWord_gaps⟩
    · rw [command, Option.isSome_iff_ne_none]
    · rw [response, Option.isSome_iff_ne_none]
    · rw [State.linkStatusWord_field, State.waitingCount_field, State.waitingCount_eq]
  · have ticket := (Verdict.mk r tag answer).bundle_ticketOn
    cases answer with
    | permit source _ attrs => exact ⟨rfl, rfl, sourceBits_on (some source), ticket, attrs.bits_on⟩
    | permitWatched source _ attrs => exact ⟨rfl, rfl, sourceBits_on (some source), ticket, attrs.bits_on⟩
    | deny reason source => exact ⟨rfl, by cases reason <;> rfl, sourceBits_on source, ticket, rfl⟩
    | retry => exact ⟨rfl, rfl, sourceBits_on none, ticket, rfl⟩
    | backoff => exact ⟨rfl, rfl, sourceBits_on none, ticket, rfl⟩

end
